-- ==== Sys2Proof/Word.lean ====
section
/-! DEFINITION. Words of the block: the command word, the response word, the 16-bit registers and the
two-bit pin state, with the numeric range of a register (spec/00_scope.md R8, R17). -/

namespace Sys2Proof

/-- One command word on the command port, bit 47 the most significant (R34, R71). -/
abbrev CmdWord := BitVec 48

/-- One response word, `err` in bit 16 and `data` in bits 15:0 (R35, R80). -/
abbrev RspWord := BitVec 17

/-- VALUE, LO, HI and response data: W = 16 bits, read as two's complement where the rule is about a
signed register (R8; log 8). -/
abbrev Reg := BitVec 16

/-- A pin state: bit 0 is pin A, bit 1 is pin B (R25, R55). -/
abbrev PinState := BitVec 2

/-- The least value of a W-bit signed register (R8). -/
def VMIN : Int := -32768

/-- The greatest value of a W-bit signed register (R8). -/
def VMAX : Int := 32767

end Sys2Proof
end

