-- ==== Sys2Proof/Config.lean ====
section
/-! DEFINITION. The build-time constants of the block (spec/00_scope.md section 3, R7 to R13), the grid
dimensions they fix (spec/40_grid_mapper.md R101, R102), the build that `State.reset` uses, and the free
values of the points the spec leaves unconstrained (R53, R108). -/

namespace Sys2Proof

/-- CLICK_STEP, how far one click moves VALUE; the spec's value is 1 and 2 is the open alternative (R9,
D8 of spec/92_eei_decisions.md). -/
inductive ClickStep where
  | one
  | two
deriving DecidableEq, Repr

def ClickStep.toInt : ClickStep → Int
  | .one => 1
  | .two => 2

/-- PORT_WIDTH, the width of the platform's port register; no rule depends on it (R12). -/
inductive PortWidth where
  | bits8
  | bits32
deriving DecidableEq, Repr

/-- The construction constants of one encoder: the opaque pin labels PIN_A and PIN_B, and PULLUP (R11). -/
structure Wiring where
  pinA : Nat
  pinB : Nat
  pullUp : Bool
deriving DecidableEq, Repr

/-- One build of the block. Every field is fixed when the block is built and nothing changes it while the
block runs (R7 to R13, R212; log 1). -/
structure Config where
  /-- one entry per encoder, in registration order (R11, R170) -/
  wiring : List Wiring
  clickStep : ClickStep
  /-- PREV_RESET (R10) -/
  prevReset : PinState
  portWidth : PortWidth
  /-- M, the number of matrix modules present, 0 to 8 (R13) -/
  m : Fin 9
  /-- TILING(M) for 3 ≤ M ≤ 8, which the spec leaves OPEN: (BW, BH), not read for other M (R102; log 13) -/
  openTiling : Nat × Nat
deriving DecidableEq, Repr

namespace Config

/-- N_ENC (R7). -/
def nEnc (c : Config) : Nat := c.wiring.length

/-- TILING(M) = (BW, BH): settled for M = 0, 1, 2, a parameter of the build above (R102; log 13). -/
def tiling (c : Config) : Nat × Nat :=
  match c.m.val with
  | 0 => (0, 0)
  | 1 => (1, 1)
  | 2 => (2, 1)
  | _ => c.openTiling

/-- BW, the blocks per row (R13). -/
def bw (c : Config) : Nat := c.tiling.1

/-- BH, the number of block rows (R13). -/
def bh (c : Config) : Nat := c.tiling.2

/-- WIDTH = 4·BW (R101). -/
def width (c : Config) : Nat := 4 * c.bw

/-- HEIGHT = 4·BH (R101). -/
def height (c : Config) : Nat := 4 * c.bh

/-- What the spec requires of a build: N_ENC ≤ 256 (R7), and for an OPEN tiling BW ≥ 1, BH ≥ 2,
BW·BH ≥ M and BW·BH ≤ 16 (R102, R105). -/
abbrev Wf (c : Config) : Prop :=
  c.nEnc ≤ 256 ∧
    (3 ≤ c.m.val →
      1 ≤ c.openTiling.1 ∧ 2 ≤ c.openTiling.2 ∧
        c.m.val ≤ c.openTiling.1 * c.openTiling.2 ∧ c.openTiling.1 * c.openTiling.2 ≤ 16)

/-- DESIGN CHOICE (log 2): the build that `State.reset` and `decodeTableWord` use. It has all 256
encoders the `enc` field can name, the spec's default CLICK_STEP and PREV_RESET, and two modules, the
largest grid whose tiling the spec settles. No statement rests on it. -/
def reference : Config where
  wiring := List.replicate 256 { pinA := 0, pinB := 0, pullUp := false }
  clickStep := .one
  prevReset := 0b00#2
  portWidth := .bits8
  m := 2
  openTiling := (2, 2)

/-- FREE VALUE (R53, U7; log 4): the level PinRead answers for an encoder whose level the environment's
list does not give; the first argument is the number of the draw, the second the encoder. -/
opaque freePin (draw enc : Nat) : PinState

/-- FREE VALUE (R108, U1, U2; log 5): the response data of an XY2I outside the valid coordinate domain,
a fresh draw on every such command. -/
opaque freeXy2i (draw : Nat) (x y : BitVec 8) : BitVec 16

/-- FREE VALUE (R108, U1, U2; log 5): the response data of an I2XY outside the valid index domain,
a fresh draw on every such command. -/
opaque freeI2xy (draw : Nat) (index : BitVec 8) : BitVec 16

end Config
end Sys2Proof
end

