-- ==== Sys2Proof/Syntax.lean ====
section
/-! DEFINITION. The ten commands with their operands (spec/30_encoding.md R70 to R79), the textual form
of R87 and the pseudo-command of R88. Operand fields have the width of their field in the command word;
Machine/Operands.lean says which are read as signed integers. -/

namespace Sys2Proof

/-- One command: a row of the opcode map of R81. -/
inductive Instr where
  /-- the idle word (R172) -/
  | nop
  /-- set CFG_DONE (R173) -/
  | begin_
  /-- sample and step every encoder (R175) -/
  | poll
  /-- step encoder `enc` with the pin state `ab` (R130) -/
  | sample (enc : BitVec 8) (ab : PinState)
  /-- set LO, HI and WRAP of encoder `enc` (R156) -/
  | setbounds (enc : BitVec 8) (lo hi : Reg) (wrap : Bool)
  /-- set VALUE of encoder `enc` through its bounds (R157) -/
  | setvalue (enc : BitVec 8) (v : Reg)
  /-- answer VALUE of encoder `enc` (R158) -/
  | getvalue (enc : BitVec 8)
  /-- answer the absolute index of cell (x, y) (R106) -/
  | xy2i (x y : BitVec 8)
  /-- answer the cell of an absolute index (R107) -/
  | i2xy (index : BitVec 8)
  /-- answer WIDTH and HEIGHT (R109) -/
  | griddim
deriving DecidableEq, Repr

/-- The encoder index a command carries, where its format has an `enc` field (R51). -/
def Instr.encField : Instr → Option (BitVec 8)
  | .nop => none
  | .begin_ => none
  | .poll => none
  | .sample enc _ => some enc
  | .setbounds enc _ _ _ => some enc
  | .setvalue enc _ => some enc
  | .getvalue enc => some enc
  | .xy2i _ _ => none
  | .i2xy _ => none
  | .griddim => none

/-- The pseudo-command SETRANGE e, lo, hi, wrap, v: SETBOUNDS, then SETVALUE, two commands (R88). -/
def setRange (enc : BitVec 8) (lo hi : Reg) (wrap : Bool) (v : Reg) : List Instr :=
  [.setbounds enc lo hi wrap, .setvalue enc v]

/-- A pin state written as two binary digits, B then A (R87). -/
def pinText (ab : PinState) : String :=
  (if ab.getLsbD 1 then "1" else "0") ++ (if ab.getLsbD 0 then "1" else "0")

/-- The textual form of a command: mnemonic and comma-separated decimal operands (R87; log 19). -/
def Instr.text : Instr → String
  | .nop => "NOP"
  | .begin_ => "BEGIN"
  | .poll => "POLL"
  | .sample enc ab => "SAMPLE " ++ toString enc.toNat ++ ", " ++ pinText ab
  | .setbounds enc lo hi wrap =>
      "SETBOUNDS " ++ toString enc.toNat ++ ", " ++ toString lo.toInt ++ ", " ++ toString hi.toInt ++
        ", " ++ (if wrap then "1" else "0")
  | .setvalue enc v => "SETVALUE " ++ toString enc.toNat ++ ", " ++ toString v.toInt
  | .getvalue enc => "GETVALUE " ++ toString enc.toNat
  | .xy2i x y => "XY2I " ++ toString x.toNat ++ ", " ++ toString y.toNat
  | .i2xy index => "I2XY " ++ toString index.toNat
  | .griddim => "GRIDDIM"

end Sys2Proof
end

