-- ==== Sys2Proof/WellFormed.lean ====
section
/-! DEFINITION. Well-formed commands. The operand types of `Instr` already have the widths of R79, so
one check is left: the encoder index of a command that carries one names an encoder of the build
(spec/20_memory.md R51, spec/30_encoding.md R84). Operand values are never a reason for illegality (R85). -/

namespace Sys2Proof

/-- `i` is a legal command of a build with `nEnc` encoders (R51, R84, R85). -/
def Instr.wellFormed (nEnc : Nat) : Instr → Bool
  | .nop => true
  | .begin_ => true
  | .poll => true
  | .sample enc _ => decide (enc.toNat < nEnc)
  | .setbounds enc _ _ _ => decide (enc.toNat < nEnc)
  | .setvalue enc _ => decide (enc.toNat < nEnc)
  | .getvalue enc => decide (enc.toNat < nEnc)
  | .xy2i _ _ => true
  | .i2xy _ => true
  | .griddim => true

end Sys2Proof
end

