-- ==== Sys2Proof/Decode.lean ====
section
/-! DEFINITION. Decoding a command word (spec/30_encoding.md R71 to R86) and, after it, encoding a
command. Decoding is total: every 48-bit word is one of the ten commands with its operands, or illegal. -/

namespace Sys2Proof

/-! ### Fields of the command word (R71, R79) -/

/-- `op`, bits 47:44. -/
def opField (w : CmdWord) : BitVec 4 := w.extractLsb' 44 4

/-- `enc`, bits 43:36. -/
def encField (w : CmdWord) : BitVec 8 := w.extractLsb' 36 8

/-- `wrap`, bit 32. -/
def wrapField (w : CmdWord) : Bool := w.getLsbD 32

/-- `hi`, bits 31:16. -/
def hiField (w : CmdWord) : Reg := w.extractLsb' 16 16

/-- `lo`, and `v` of SETVALUE, bits 15:0. -/
def loField (w : CmdWord) : Reg := w.extractLsb' 0 16

/-- `ab` of SAMPLE, bits 1:0. -/
def abField (w : CmdWord) : PinState := w.extractLsb' 0 2

/-- `x` of XY2I and `index` of I2XY, bits 7:0. -/
def xField (w : CmdWord) : BitVec 8 := w.extractLsb' 0 8

/-- `y` of XY2I, bits 15:8. -/
def yField (w : CmdWord) : BitVec 8 := w.extractLsb' 8 8

/-! ### The opcode map (R81) -/

/-- One row of the opcode map: a word is this command when `w` and `mask` is `pattern`. -/
structure Row where
  mnemonic : String
  pattern : CmdWord
  mask : CmdWord
  /-- the format has an `enc` field, checked against N_ENC (R84) -/
  hasEnc : Bool
  /-- the command with its operands (R79) -/
  build : CmdWord → Instr

/-- The ten rows of R81. -/
def opcodeMap : List Row :=
  [ ⟨"NOP", 0x000000000000#48, 0xFFFFFFFFFFFF#48, false, fun _ => .nop⟩,
    ⟨"BEGIN", 0x100000000000#48, 0xFFFFFFFFFFFF#48, false, fun _ => .begin_⟩,
    ⟨"POLL", 0x200000000000#48, 0xFFFFFFFFFFFF#48, false, fun _ => .poll⟩,
    ⟨"SAMPLE", 0x300000000000#48, 0xF00FFFFFFFFC#48, true, fun w => .sample (encField w) (abField w)⟩,
    ⟨"SETBOUNDS", 0x400000000000#48, 0xF00E00000000#48, true,
      fun w => .setbounds (encField w) (loField w) (hiField w) (wrapField w)⟩,
    ⟨"SETVALUE", 0x500000000000#48, 0xF00FFFFF0000#48, true,
      fun w => .setvalue (encField w) (loField w)⟩,
    ⟨"GETVALUE", 0x600000000000#48, 0xF00FFFFFFFFF#48, true, fun w => .getvalue (encField w)⟩,
    ⟨"XY2I", 0x800000000000#48, 0xFFFFFFFF0000#48, false, fun w => .xy2i (xField w) (yField w)⟩,
    ⟨"I2XY", 0x900000000000#48, 0xFFFFFFFFFF00#48, false, fun w => .i2xy (xField w)⟩,
    ⟨"GRIDDIM", 0xA00000000000#48, 0xFFFFFFFFFFFF#48, false, fun _ => .griddim⟩ ]

/-- The word matches the row: `(w and mask) = match` (R81). -/
def Row.matches (r : Row) (w : CmdWord) : Bool := w &&& r.mask == r.pattern

/-! ### Decoding (R82 to R86) -/

/-- Why a word is illegal. The block reports the three alike (R191); the names are the model's
(log 17). -/
inductive Illegal where
  /-- `op` is 0x7 or 0xB to 0xF (R82) -/
  | reservedOp
  /-- an assigned `op` with a non-zero must-be-zero bit (R83) -/
  | mustBeZero
  /-- an encoder command with `enc` ≥ N_ENC (R84) -/
  | encoderOutOfRange
deriving DecidableEq, Repr

/-- The reserved values of `op` (R82). -/
def reservedOp (op : BitVec 4) : Bool := op == 0x7#4 || decide (0xB ≤ op.toNat)

/-- Decoding of a command word in a build with `nEnc` encoders (R86): the first row the word matches,
then the encoder index, then the operands. -/
def decode (nEnc : Nat) (w : CmdWord) : Except Illegal Instr :=
  match opcodeMap.find? (fun r => r.matches w) with
  | some r =>
    if r.hasEnc && decide (nEnc ≤ (encField w).toNat) then .error .encoderOutOfRange
    else .ok (r.build w)
  | none => if reservedOp (opField w) then .error .reservedOp else .error .mustBeZero

/-- The instruction the decoder reads from an opcode-table word of `nbits` bits, every bit above them
zero. The command word is the one word of 48 bits, bit 0 its least significant (R71). `enc` is checked
against the reference build, in which every index is legal (log 2; the numbering is log 12). -/
def decodeTableWord (nbits w : Nat) : Option Instr :=
  if w % 2 ^ nbits < 2 ^ 48 then
    match decode Config.reference.nEnc (BitVec.ofNat 48 (w % 2 ^ nbits)) with
    | .ok i => some i
    | .error _ => none
  else none

/-! ### Encoding (R71 to R78) -/

/-- The command word with the given fields, `rsv` zero (R71). -/
def packWord (op : BitVec 4) (enc : BitVec 8) (wrap : Bool) (hi lo : Reg) : CmdWord :=
  op ++ enc ++ 0#3 ++ BitVec.ofBool wrap ++ hi ++ lo

/-- The command word of a command (R72 to R78). -/
def encode : Instr → CmdWord
  | .nop => packWord 0x0#4 0 false 0 0
  | .begin_ => packWord 0x1#4 0 false 0 0
  | .poll => packWord 0x2#4 0 false 0 0
  | .sample enc ab => packWord 0x3#4 enc false 0 (0#14 ++ ab)
  | .setbounds enc lo hi wrap => packWord 0x4#4 enc wrap hi lo
  | .setvalue enc v => packWord 0x5#4 enc false 0 v
  | .getvalue enc => packWord 0x6#4 enc false 0 0
  | .xy2i x y => packWord 0x8#4 0 false 0 (y ++ x)
  | .i2xy index => packWord 0x9#4 0 false 0 (0#8 ++ index)
  | .griddim => packWord 0xA#4 0 false 0 0

end Sys2Proof
end

