-- ==== Sys2Proof/Machine/State.lean ====
section
/-! DEFINITION. The state of the block (spec/10_state.md R20 to R36), why a step can stop, and the state
after reset (R40). The block has no memory and no program counter (R30, R50). -/

namespace Sys2Proof.Machine

/-- A sub-step, and the value of ACC: exactly the three values -1, 0 and +1 (R26, R39, R122, U17;
log 10). -/
inductive SubStep where
  | minus
  | zero
  | plus
deriving DecidableEq, Repr

/-- The six registers of one encoder (R20). -/
structure Encoder where
  /-- VALUE[i], signed (R21) -/
  value : Reg
  /-- LO[i], signed, inclusive (R22) -/
  lo : Reg
  /-- HI[i], signed, inclusive (R23) -/
  hi : Reg
  /-- WRAP[i]: false clips, true wraps around (R24) -/
  wrap : Bool
  /-- PREV[i], the pin state of the last valid sample (R25) -/
  prev : PinState
  /-- ACC[i] (R26) -/
  acc : SubStep
deriving DecidableEq, Repr

/-- The content of a response (R35, R80). -/
structure Response where
  err : Bool
  data : BitVec 16
deriving DecidableEq, Repr

/-- The response word: `rsp[16]` is `err`, `rsp[15:0]` is `data` (R35). -/
def Response.word (r : Response) : RspWord := BitVec.ofBool r.err ++ r.data

/-- What the outside presents to the block for one step (R15; log 3). -/
inductive Event where
  /-- the host presents a command word with `cmd_valid = 1` (R34), while the environment shows these
  levels at the pins, entry i for encoder i (R33, R53; log 4) -/
  | command (word : CmdWord) (pins : List PinState)
  /-- `rst` is asserted, or power comes on (R37, R210) -/
  | reset
deriving DecidableEq, Repr

/-- The whole state. `cfg` is the build (constants, log 1); `encs` and `cfgDone` are the registers of R20;
`rsp` is the response port; `pins` and `port` are the inputs; `draws` is the model's own counter. -/
structure State where
  /-- the build-time constants, which no step changes (R7 to R13, R212; log 1) -/
  cfg : Config
  /-- the encoder records, in registration order (R20, R29) -/
  encs : List Encoder
  /-- CFG_DONE (R27) -/
  cfgDone : Bool
  /-- the response port: `none` is `rsp_valid = 0` (R35, R40; log 6) -/
  rsp : Option Response
  /-- PINS, the levels at the pins while the present command runs, entry i for encoder i (R33; log 4) -/
  pins : List PinState
  /-- what the outside presents next, oldest first (R30, R34; log 3) -/
  port : List Event
  /-- the MODEL's own: how many free draws have been used (R53, R108; log 5) -/
  draws : Nat
deriving DecidableEq, Repr

/-- A step of the block never faults: there is no fault state, no trap and no hang (R16, R193, R196;
log 15). No constructor, so nothing raises one; safe. -/
inductive Fault where
deriving DecidableEq, Repr

/-- Why the model gives a command no meaning. -/
inductive Refusal where
  /-- raised by an arm of `exec` whose command has no meaning yet; safe (the model stops where the
  hardware goes on) -/
  | notModelled (mnemonic : String)
  /-- raised by SETVALUE, and by a SAMPLE or POLL whose step emits, when the Apply it performs finds
  LO[enc] > HI[enc]: the source gives that no meaning (R154, R192, R195; log 7); safe -/
  | boundsPrecondition (enc : Nat)
deriving DecidableEq, Repr

/-- N_ENC of the register file: how many encoder records an index can select (R7, R51; log 9). -/
def State.nEnc (s : State) : Nat := s.encs.length

/-- The reset values of one encoder's registers in the build `c` (R40). -/
def Encoder.reset (c : Config) : Encoder where
  value := BitVec.ofInt 16 0
  lo := BitVec.ofInt 16 VMIN
  hi := BitVec.ofInt 16 VMAX
  wrap := false
  prev := c.prevReset
  acc := .zero

/-- A block of build `c` right after reset, with nothing presented to it yet (R40). The spec fixes no pin
level and no command then: pins at 00 and no event are DESIGN CHOICES (log 3, log 4), as is the counter at
0 (log 5). -/
def State.resetOf (c : Config) : State where
  cfg := c
  encs := List.replicate c.nEnc (Encoder.reset c)
  cfgDone := false
  rsp := none
  pins := List.replicate c.nEnc 0b00#2
  port := []
  draws := 0

/-- The machine right after reset, in the reference build (R40; log 2). -/
def State.reset : State := State.resetOf Config.reference

end Sys2Proof.Machine
end

