-- ==== Sys2Proof/Machine/Operands.lean ====
section
/-! DEFINITION. Reading operands and writing results: signed and unsigned readings of fields and
registers, extensions, and the arithmetic primitives (spec/00_scope.md R17, R18, R19;
spec/30_encoding.md R79, R80). All arithmetic is over the mathematical integers (R17, R160). -/

namespace Sys2Proof.Machine

/-- `signed_16` (R17, R79). -/
def signed16 (b : Reg) : Int := b.toInt

/-- `bits_16` (R17). -/
def bits16 (k : Int) : BitVec 16 := BitVec.ofInt 16 k

/-- `zext_16` of an 8-bit value (R17). -/
def zext16 (b : BitVec 8) : BitVec 16 := b.setWidth 16

/-- The encoder index of a command, unsigned (R79). -/
def encIndex (enc : BitVec 8) : Nat := enc.toNat

/-- Two coordinates packed into response data: `data[15:8] = y`, `data[7:0] = x` (R80; log 14). -/
def packXY (x y : Nat) : BitVec 16 := BitVec.ofNat 8 y ++ BitVec.ofNat 8 x

/-- `clamp` (R18). -/
def clamp (v lo hi : Int) : Int := if v < lo then lo else if hi < v then hi else v

/-- `fmod`, the modulo whose result is never negative, for n > 0 (R18). -/
def fmod (a n : Int) : Int := a % n

/-- `sign` (R18). -/
def sign (k : Int) : Int := if k < 0 then -1 else if 0 < k then 1 else 0

/-- The number a sub-step, or ACC, stands for (R26, R122). -/
def SubStep.toInt : SubStep → Int
  | .minus => -1
  | .zero => 0
  | .plus => 1

/-- The sub-step of a number in {-1, 0, +1} (R26). -/
def SubStep.ofInt (k : Int) : SubStep := if k < 0 then .minus else if 0 < k then .plus else .zero

/-- How ACC is stored: 2 bits, two's complement; 0b10 is never held (R26). -/
def SubStep.bits : SubStep → BitVec 2
  | .minus => 0b11#2
  | .zero => 0b00#2
  | .plus => 0b01#2

end Sys2Proof.Machine
end

