-- ==== Sys2Proof/Machine/Ops.lean ====
section
/-! DEFINITION. The named operations the meanings share: the register file indexed by encoder number
(spec/20_memory.md R51), PinRead (R53), responding (spec/00_scope.md R19), the illegal outcome, which is
all the block has of an exception (spec/60_exceptions.md R191, R196), the free draws (R53, R108), the
idle step, reset (spec/70_reset_and_hazards.md R210), and accepting the next word of the command port.
There is no memory operation, because there is no memory (R50). -/

namespace Sys2Proof.Machine

/-! ### The response port -/

/-- `Respond(data)`: the response of the command is `err = 0` with this data (R19, R80). -/
def respond (data : BitVec 16) (s : State) : State :=
  { s with rsp := some { err := false, data := data } }

/-- A command that calls no `Respond`: `err = 0`, `data = 0` (R19, R80). -/
def respondDone (s : State) : State := respond 0#16 s

/-- The illegal outcome: the response is `err = 1`, `data = 0` and nothing else changes. No state is
saved, no mode changes and control goes nowhere; the next command is accepted normally, so there is
nothing to return from (R191, R196, R197). -/
def takeIllegal (s : State) : State :=
  { s with rsp := some { err := true, data := 0#16 } }

/-! ### The register file -/

/-- The record an encoder index selects; `none` for an index ≥ N_ENC, which selects nothing (R51). -/
def encoderAt (s : State) (i : Nat) : Option Encoder := s.encs[i]?

/-- The write of the record of encoder `i`. -/
def setEncoder (i : Nat) (r : Encoder) (s : State) : State := { s with encs := s.encs.set i r }

/-- A command on one encoder: illegal where the index selects none (R51, R84, R191; log 9). -/
def onEncoder (enc : BitVec 8) (s : State) (f : Encoder → Host.Outcome State Fault Refusal) :
    Host.Outcome State Fault Refusal :=
  match encoderAt s (encIndex enc) with
  | none => .next (takeIllegal s)
  | some r => f r

/-! ### Draws -/

/-- `PinRead(i)`: the level the environment shows for encoder `i`, both bits at one instant; a free value
where its list gives none (R53; log 4). -/
def pinRead (s : State) (i : Nat) : PinState :=
  match s.pins[i]? with
  | some p => p
  | none => Config.freePin s.draws i

/-- The next draw is a new one (R53, R108; log 5). -/
def useDraw (s : State) : State := { s with draws := s.draws + 1 }

/-! ### Steps without a command -/

/-- A step at which no command is presented: `cmd_valid = 0`, so there is no response (R34, R35; log 6). -/
def idle (s : State) : State := { s with rsp := none }

/-- Reset: every register of R20 at its reset value and the response port idle; the build, the pins and
what the outside presents next are not the block's to reset (R40, R210, R212; log 11). -/
def takeReset (s : State) : State :=
  { State.resetOf s.cfg with pins := s.pins, port := s.port, draws := s.draws }

/-! ### The command port -/

/-- The state while a command runs: its event is off the port and its pin levels stand at the pins
(R33, R34, R53; log 3, log 4). -/
def accept (pins : List PinState) (rest : List Event) (s : State) : State :=
  { s with pins := pins, port := rest }

/-- What the block makes of a presented word (R86). -/
def decodeAt (s : State) (w : CmdWord) : Except Illegal Instr := decode s.nEnc w

end Sys2Proof.Machine
end

