-- ==== Sys2Proof/Machine/Grid.lean ====
section
/-! DEFINITION. The grid mapper (spec/40_grid_mapper.md): the coordinate arithmetic and the commands
XY2I, I2XY and GRIDDIM. It holds no state (R32). -/

namespace Sys2Proof.Machine

/-- The linear slot of the module at block coordinates (bx, by) (R103). -/
def moduleSlot (bw bx by_ : Nat) : Nat := by_ * bw + bx

/-- The index of a cell within its module (R104). -/
def intraIndex (ix iy : Nat) : Nat := iy * 4 + ix

/-- The absolute index of cell (x, y) in a grid of `bw` blocks per row (R106). -/
def xyToIndex (bw x y : Nat) : Nat :=
  moduleSlot bw (x / 4) (y / 4) * 16 + intraIndex (x % 4) (y % 4)

/-- The cell (x, y) of an absolute index in a grid of `bw` blocks per row (R107). -/
def indexToXY (bw index : Nat) : Nat × Nat :=
  let slot := index / 16
  let intra := index % 16
  (slot % bw * 4 + intra % 4, slot / bw * 4 + intra / 4)

/-- Which present module backs a slot, counting present modules only; `none` for a slot ≥ M (R103). -/
def slotModule (c : Config) (slot : Nat) : Option Nat := if slot < c.m.val then some slot else none

/-- The valid coordinate domain (R105). -/
def validXY (c : Config) (x y : Nat) : Bool := decide (x < c.width) && decide (y < c.height)

/-- The valid index domain (R105). -/
def validIndex (c : Config) (index : Nat) : Bool := decide (index < c.width * c.height)

/-- XY2I x, y: the absolute index, or any value outside the valid domain (R106, R108). -/
def execXy2i (x y : BitVec 8) (s : State) : Host.Outcome State Fault Refusal :=
  if validXY s.cfg x.toNat y.toNat then
    .next (respond (zext16 (BitVec.ofNat 8 (xyToIndex s.cfg.bw x.toNat y.toNat))) s)
  else .next (respond (Config.freeXy2i s.draws x y) (useDraw s))

/-- I2XY index: the cell, y in the high byte, or any value outside the valid domain (R107, R108). -/
def execI2xy (index : BitVec 8) (s : State) : Host.Outcome State Fault Refusal :=
  if validIndex s.cfg index.toNat then
    .next (respond (packXY (indexToXY s.cfg.bw index.toNat).1 (indexToXY s.cfg.bw index.toNat).2) s)
  else .next (respond (Config.freeI2xy s.draws index) (useDraw s))

/-- GRIDDIM: WIDTH in the low byte, HEIGHT in the high byte (R109). -/
def execGriddim (s : State) : Host.Outcome State Fault Refusal :=
  .next (respond (packXY s.cfg.width s.cfg.height) s)

end Sys2Proof.Machine
end

