-- ==== Sys2Proof/Machine/Flags.lean ====
section
/-! DEFINITION. The flags and what they drive. There are no condition codes and no command writes a flag
as a side effect of arithmetic (spec/10_state.md R24, R28): the flags are WRAP[i], which SETBOUNDS alone
writes, and CFG_DONE, which BEGIN alone writes and which drives the pull-up enables (R27, R36). -/

namespace Sys2Proof.Machine

/-- CFG_DONE <- 1 (R27, R173). -/
def setCfgDone (s : State) : State := { s with cfgDone := true }

/-- The write of an encoder's bounds and wrap flag (R22, R23, R24, R156). -/
def Encoder.setBounds (r : Encoder) (lo hi : Reg) (wrap : Bool) : Encoder :=
  { r with lo := lo, hi := hi, wrap := wrap }

/-- The outputs PU_EN[i] = CFG_DONE and PULLUP[i], entry i for encoder i (R36). -/
def State.puEn (s : State) : List Bool := s.cfg.wiring.map (fun k => s.cfgDone && k.pullUp)

end Sys2Proof.Machine
end

