-- ==== Sys2Proof/Machine/Bounds.lean ====
section
/-! DEFINITION. The bounds policy (spec/42_bounds_policy.md): the function Apply and the commands
SETBOUNDS, SETVALUE and GETVALUE. -/

namespace Sys2Proof.Machine

/-- `Apply(raw, lo, hi, wrap)`; `none` is Refuse(BoundsPrecondition) (R151, R154). -/
def applyBounds (raw lo hi : Int) (wrap : Bool) : Option Int :=
  if hi < lo then none
  else if wrap then some (lo + fmod (raw - lo) (hi - lo + 1))
  else some (clamp raw lo hi)

/-- `VALUE[i] <- Apply(raw, LO[i], HI[i], WRAP[i])`; `none` where the Apply is refused (R128, R157). -/
def Encoder.normalise (r : Encoder) (raw : Int) : Option Encoder :=
  match applyBounds raw (signed16 r.lo) (signed16 r.hi) r.wrap with
  | none => none
  | some v => some { r with value := bits16 v }

/-- SETBOUNDS e, lo, hi, wrap: stores the bounds as given, crossed or not, and does not touch VALUE,
PREV or ACC (R156, R134). -/
def execSetbounds (enc : BitVec 8) (lo hi : Reg) (wrap : Bool) (s : State) :
    Host.Outcome State Fault Refusal :=
  onEncoder enc s fun r =>
    .next (respondDone (setEncoder (encIndex enc) (r.setBounds lo hi wrap) s))

/-- SETVALUE e, v: VALUE <- Apply(v, LO, HI, WRAP) (R157). -/
def execSetvalue (enc : BitVec 8) (v : Reg) (s : State) : Host.Outcome State Fault Refusal :=
  onEncoder enc s fun r =>
    match r.normalise (signed16 v) with
    | none => .refused (.boundsPrecondition (encIndex enc))
    | some r' => .next (respondDone (setEncoder (encIndex enc) r' s))

/-- GETVALUE e: answers VALUE as it stands, with no normalisation (R158). -/
def execGetvalue (enc : BitVec 8) (s : State) : Host.Outcome State Fault Refusal :=
  onEncoder enc s fun r => .next (respond (bits16 (signed16 r.value)) s)

end Sys2Proof.Machine
end

