-- ==== Sys2Proof/Machine/Quadrature.lean ====
section
/-! DEFINITION. The quadrature decoder state machine (spec/41_quadrature_decoder.md): the transition
table, the step that POLL and SAMPLE share, and the command SAMPLE. -/

namespace Sys2Proof.Machine

/-- The key of a step: previous pin state in bits 3:2, sampled pin state in bits 1:0 (R121). -/
def quadKey (prev cur : PinState) : BitVec 4 := prev ++ cur

/-- QTABLE, indexed by key (R122). -/
def qtableRows : List SubStep :=
  [ .zero, .plus, .minus, .zero,
    .minus, .zero, .zero, .plus,
    .plus, .zero, .zero, .minus,
    .zero, .minus, .plus, .zero ]

/-- `QTABLE[key]` (R122). -/
def qtable (key : BitVec 4) : SubStep := qtableRows.getD key.toNat .zero

/-- `Step(i, cur)` on the record of encoder i: its registers after the step, and the emitted delta, -2,
0 or +2; `none` where the Apply of an emitting step is refused (R124 to R129). -/
def Encoder.step (click : ClickStep) (r : Encoder) (cur : PinState) : Option (Encoder × Int) :=
  let s := qtable (quadKey r.prev cur)
  if s = .zero then some (r, 0)
  else
    let a := r.acc.toInt + s.toInt
    if a = 2 ∨ a = -2 then
      match { r with prev := cur, acc := .zero : Encoder }.normalise
          (signed16 r.value + sign a * click.toInt) with
      | none => none
      | some r' => some (r', a)
    else some ({ r with prev := cur, acc := SubStep.ofInt a }, 0)

/-- SAMPLE e, ab: one decoder step of encoder e with the given pin state; answers the delta (R130). -/
def execSample (enc : BitVec 8) (ab : PinState) (s : State) : Host.Outcome State Fault Refusal :=
  onEncoder enc s fun r =>
    match r.step s.cfg.clickStep ab with
    | none => .refused (.boundsPrecondition (encIndex enc))
    | some (r', delta) => .next (respond (bits16 delta) (setEncoder (encIndex enc) r' s))

end Sys2Proof.Machine
end

