-- ==== Sys2Proof/Machine/Manager.lean ====
section
/-! DEFINITION. The encoder manager (spec/43_encoder_manager.md): NOP, BEGIN and POLL. -/

namespace Sys2Proof.Machine

/-- NOP: no register is read or written (R172). -/
def execNop (s : State) : Host.Outcome State Fault Refusal := .next (respondDone s)

/-- BEGIN: CFG_DONE <- 1; no encoder register is touched and no pin is read (R173). -/
def execBegin (s : State) : Host.Outcome State Fault Refusal := .next (respondDone (setCfgDone s))

/-- The loop of POLL over the records from encoder `i` on; an error names the lowest encoder whose step
is refused (R175, R195). -/
def pollFrom (click : ClickStep) (pin : Nat → PinState) :
    Nat → List Encoder → Except Nat (List Encoder)
  | _, [] => .ok []
  | i, r :: rs =>
    match r.step click (pin i) with
    | none => .error i
    | some (r', _) =>
      match pollFrom click pin (i + 1) rs with
      | .error j => .error j
      | .ok rs' => .ok (r' :: rs')

/-- POLL: one pin read and one decoder step per encoder, the deltas discarded; the whole loop is one
command, and CFG_DONE is not tested (R175, R176). -/
def execPoll (s : State) : Host.Outcome State Fault Refusal :=
  match pollFrom s.cfg.clickStep (pinRead s) 0 s.encs with
  | .error i => .refused (.boundsPrecondition i)
  | .ok encs => .next (respondDone (useDraw { s with encs := encs }))

end Sys2Proof.Machine
end

