-- ==== Sys2Proof/Machine/Dispatch.lean ====
section
/-! DEFINITION. The dispatch of a decoded command to its meaning: one arm per constructor of `Instr`. -/

namespace Sys2Proof.Machine

def exec (i : Instr) (s : State) : Host.Outcome State Fault Refusal :=
  match i with
  | .nop => Sys2Proof.Machine.execNop s
  | .begin_ => Sys2Proof.Machine.execBegin s
  | .poll => Sys2Proof.Machine.execPoll s
  | .sample enc ab => Sys2Proof.Machine.execSample enc ab s
  | .setbounds enc lo hi wrap => Sys2Proof.Machine.execSetbounds enc lo hi wrap s
  | .setvalue enc v => Sys2Proof.Machine.execSetvalue enc v s
  | .getvalue enc => Sys2Proof.Machine.execGetvalue enc s
  | .xy2i x y => Sys2Proof.Machine.execXy2i x y s
  | .i2xy index => Sys2Proof.Machine.execI2xy index s
  | .griddim => Sys2Proof.Machine.execGriddim s

end Sys2Proof.Machine
end

