-- ==== Sys2Proof/Machine/Step.lean ====
section
/-! DEFINITION. One step of the block: it takes the oldest event of its port (spec/10_state.md R34, R37;
log 3). There is no program counter and no fetch (R30): a command word arrives on the port. -/

namespace Sys2Proof.Machine

/-- What an accepted command word does: the decoded command, or the illegal outcome (R86, R191, R195). -/
def runWord (w : CmdWord) (s : State) : Host.Outcome State Fault Refusal :=
  match decodeAt s w with
  | .ok i => exec i s
  | .error _ => .next (takeIllegal s)

/-- One step: nothing presented, a reset, or one command as one atomic step (R56, R59, R210). -/
def step (s : State) : Host.Outcome State Fault Refusal :=
  match s.port with
  | [] => .next (idle s)
  | .reset :: rest => .next (takeReset { s with port := rest })
  | .command w pins :: rest => runWord w (accept pins rest s)

/-- `s` with an opcode-table word of `nbits` bits presented next on the command port, the pins at the
levels they have (log 3, log 12). -/
def State.withFetchWord (s : State) (nbits w : Nat) : State :=
  { s with port := .command (BitVec.ofNat 48 (w % 2 ^ nbits)) s.pins :: s.port }

end Sys2Proof.Machine
end

