-- ==== Sys2Proof/Safety.lean ====
section
/-! DEFINITION. What claims call a good state and a safe run: the build is one the spec admits, the
register file has one record per encoder, and bounds are not crossed where a value may be normalised
(spec/60_exceptions.md R192: a claim excludes the refusal by a premise). -/

namespace Sys2Proof.Machine

/-- The build is admitted (R7, R102, R105) and there is one record per encoder of it (R20). -/
abbrev State.Wf (s : State) : Prop := s.cfg.Wf ∧ s.encs.length = s.cfg.nEnc

/-- The precondition of Apply for one encoder: LO ≤ HI (R23, R154). -/
abbrev Encoder.Ordered (r : Encoder) : Prop := r.lo.toInt ≤ r.hi.toInt

/-- No encoder's bounds are crossed (R192). -/
abbrev State.Ordered (s : State) : Prop := ∀ r ∈ s.encs, r.Ordered

/-- VALUE lies within the bounds (R38). -/
abbrev Encoder.InRange (r : Encoder) : Prop := r.lo.toInt ≤ r.value.toInt ∧ r.value.toInt ≤ r.hi.toInt

/-- Every VALUE lies within its bounds (R38). -/
abbrev State.InRange (s : State) : Prop := ∀ r ∈ s.encs, r.InRange

/-- The block can take its next step: it is not stopped (R222: it never hangs). -/
def State.CanStep (s : State) : Prop := ∃ t, step s = .next t

end Sys2Proof.Machine
end

