-- ==== Sys2Proof/Certificates/Slice0/Obligations.lean ====
section
/-! DEFINITION. The statements for the provers, in the terms of spec/: each docstring names the rule it
formalises. The few helper definitions at the top are the statements' own reading of a rule, written apart
from the model's definitions. -/

namespace Sys2Proof.Claims

open Sys2Proof Sys2Proof.Machine

/-- The table of R122, as printed there, indexed by key. -/
def qtableAsPrinted : List Int := [0, 1, -1, 0, -1, 0, 0, 1, 1, 0, 0, -1, 0, -1, 1, 0]

/-- The sub-step of the transition from pin state `p` to `c`: the entry at key 4·p + c (R121, R122). -/
def subStep (p c : PinState) : Int := qtableAsPrinted.getD (4 * p.toNat + c.toNat) 0

/-- `v` is what Apply answers for `raw` in `lo .. hi`, in the words of R152: the nearest value of the range
when clipping, the value of the range congruent to `raw` modulo the span when wrapping around. -/
def Applied (raw lo hi : Int) (wrap : Bool) (v : Int) : Prop :=
  lo ≤ v ∧ v ≤ hi ∧
    (wrap = false →
      (raw < lo → v = lo) ∧ (hi < raw → v = hi) ∧ (lo ≤ raw → raw ≤ hi → v = raw)) ∧
    (wrap = true → (hi - lo + 1) ∣ (v - raw))

/-- A response with `err = 0` (R80). -/
def ok (data : BitVec 16) : Option Response := some { err := false, data := data }

/-- The response of an illegal command (R191). -/
def illegal : Option Response := some { err := true, data := 0#16 }

/-- The opcode and the mask of each of the ten rows of R81, as printed there. -/
def formatsAsPrinted : List (BitVec 4 × CmdWord) :=
  [ (0x0#4, 0xFFFFFFFFFFFF#48), (0x1#4, 0xFFFFFFFFFFFF#48), (0x2#4, 0xFFFFFFFFFFFF#48),
    (0x3#4, 0xF00FFFFFFFFC#48), (0x4#4, 0xF00E00000000#48), (0x5#4, 0xF00FFFFF0000#48),
    (0x6#4, 0xF00FFFFFFFFF#48), (0x8#4, 0xFFFFFFFF0000#48), (0x9#4, 0xFFFFFFFFFF00#48),
    (0xA#4, 0xFFFFFFFFFFFF#48) ]

/-- Position of a pin state in the cycle 00, 01, 11, 10 (R122). -/
def phase (p : PinState) : Int := [0, 1, 3, 2].getD p.toNat 0

/-- The next pin state in the positive direction 00, 01, 11, 10, 00 (R122, R123). -/
def forward (p : PinState) : PinState := [0b01#2, 0b11#2, 0b00#2, 0b10#2].getD p.toNat 0b00#2

/-- A sequence of samples of one encoder: its record afterwards, the sum of the sub-steps of the samples
and the sum of the deltas they emit; `none` where a step is refused. -/
def samples (click : ClickStep) : Encoder → List PinState → Option (Encoder × Int × Int)
  | r, [] => some (r, 0, 0)
  | r, c :: cs =>
    match r.step click c with
    | none => none
    | some (r', d) =>
      match samples click r' cs with
      | none => none
      | some (r'', sub, del) => some (r'', subStep r.prev c + sub, d + del)

end Sys2Proof.Claims

open Sys2Proof Sys2Proof.Machine Sys2Proof.Claims

/-! ### Encoding and decoding -/

/-- Decode and encode agree: in a build of any size, the word of a well-formed command decodes to that
command, with every operand at every value (R71 to R79, R86). -/
def Obligations.DecodeOfEncodeIsTheCommand : Prop :=
  ∀ (n : Nat) (i : Instr), i.wellFormed n = true → decode n (encode i) = .ok i

/-- A word that decodes to a command is the word of that command, and the command is well-formed: no two
words decode to one command, and no bit of a legal word is dropped (R81 to R86). -/
def Obligations.LegalWordIsEncodingOfItsCommand : Prop :=
  ∀ (n : Nat) (w : CmdWord) (i : Instr),
    decode n w = .ok i → encode i = w ∧ i.wellFormed n = true

/-- The rows of the opcode map have the printed opcodes and masks, every mask contains bits 47:44, and no
word matches two rows (R81). -/
def Obligations.OpcodeRowsAreDisjoint : Prop :=
  opcodeMap.map (fun r => (opField r.pattern, r.mask)) = formatsAsPrinted ∧
  (∀ r ∈ opcodeMap, opField r.mask = 0xF#4) ∧
  ∀ (w : CmdWord), ∀ r ∈ opcodeMap, ∀ r' ∈ opcodeMap,
    r.matches w = true → r'.matches w = true → r.mnemonic = r'.mnemonic

/-- R82: a word whose `op` is 0x7 or 0xB to 0xF is illegal whatever its other bits: no state changes and
the response is `err = 1`, `data = 0`. -/
def Obligations.ReservedOpcodeIsIllegal : Prop :=
  ∀ (w : CmdWord) (s : State) (pins : List PinState) (rest : List Event),
    (w.extractLsb' 44 4 = 0x7#4 ∨ 0xB ≤ (w.extractLsb' 44 4).toNat) →
    s.port = .command w pins :: rest →
    (∃ why, decode s.encs.length w = .error why) ∧
    step s = .next { s with pins := pins, port := rest, rsp := illegal }

/-- R83: a word with an assigned `op` and a bit set that its format's mask requires to be zero is illegal,
with the effect of R82; the two words R83 names are such words. -/
def Obligations.NonzeroMustBeZeroBitIsIllegal : Prop :=
  (∀ f ∈ formatsAsPrinted, ∀ (w : CmdWord) (s : State) (pins : List PinState) (rest : List Event),
    w.extractLsb' 44 4 = f.1 →
    w &&& (f.2 &&& 0x0FFFFFFFFFFF#48) ≠ 0#48 →
    s.port = .command w pins :: rest →
    (∃ why, decode s.encs.length w = .error why) ∧
    step s = .next { s with pins := pins, port := rest, rsp := illegal }) ∧
  (∀ n, ∃ why, decode n 0x600000000001#48 = .error why) ∧
  (∀ n, ∃ why, decode n 0x200100000000#48 = .error why)

/-- R84: a SAMPLE, SETBOUNDS, SETVALUE or GETVALUE word whose `enc` ≥ N_ENC is illegal, with the effect of
R82; with N_ENC = 0 that is every such word, and BEGIN and POLL are legal and change nothing but CFG_DONE
(the model's own counter of draws, log 5, is not the spec's state). -/
def Obligations.EncoderIndexOutOfRangeIsIllegal : Prop :=
  (∀ (w : CmdWord) (s : State) (pins : List PinState) (rest : List Event),
    w.extractLsb' 44 4 ∈ [0x3#4, 0x4#4, 0x5#4, 0x6#4] →
    s.encs.length ≤ (w.extractLsb' 36 8).toNat →
    s.port = .command w pins :: rest →
    (∃ why, decode s.encs.length w = .error why) ∧
    step s = .next { s with pins := pins, port := rest, rsp := illegal }) ∧
  (∀ (s : State) (pins : List PinState) (rest : List Event),
    s.encs = [] →
    (s.port = .command 0x100000000000#48 pins :: rest →
      step s = .next { s with pins := pins, port := rest, cfgDone := true, rsp := ok 0#16 }) ∧
    (s.port = .command 0x200000000000#48 pins :: rest →
      ∃ k, step s = .next { s with pins := pins, port := rest, rsp := ok 0#16, draws := k }))

/-- The illegal outcome and `err` (R191, R195): a word that does not decode leaves everything as it
was but for the response, and a word that does decode never answers `err = 1`. -/
def Obligations.ErrIsSetExactlyByIllegalWords : Prop :=
  ∀ (s : State) (w : CmdWord) (pins : List PinState) (rest : List Event),
    s.port = .command w pins :: rest →
    (∀ why, decode s.encs.length w = .error why →
      step s = .next { s with pins := pins, port := rest, rsp := illegal }) ∧
    (∀ i t, decode s.encs.length w = .ok i → step s = .next t →
      ∃ d, t.rsp = ok d)

/-- Sanity: words written out from the formats decode to the commands they stand for (R72 to R79). -/
def Obligations.WrittenOutWordsDecode : Prop :=
  decode 1 0x000000000000#48 = .ok .nop ∧
  decode 1 0x100000000000#48 = .ok .begin_ ∧
  decode 1 0x200000000000#48 = .ok .poll ∧
  decode 1 0x300000000002#48 = .ok (.sample 0 0b10#2) ∧
  decode 1 0x4001000A0000#48 = .ok (.setbounds 0 0 10 true) ∧
  decode 1 0x40010005FFFB#48 = .ok (.setbounds 0 (BitVec.ofInt 16 (-5)) 5 true) ∧
  decode 1 0x50000000FFFB#48 = .ok (.setvalue 0 (BitVec.ofInt 16 (-5))) ∧
  decode 2 0x601000000000#48 = .ok (.getvalue 1) ∧
  decode 1 0x800000000605#48 = .ok (.xy2i 5 6) ∧
  decode 1 0x900000000039#48 = .ok (.i2xy 57) ∧
  decode 1 0xA00000000000#48 = .ok .griddim

/-! ### Steps -/

/-- A step runs the decoded command: when the word presented next decodes to `i`, the step is `exec i` at
the state with that event taken off the port and its pin levels at the pins (R34, R56, R59; the port as a
list of events is log 3, the pin levels with each command log 4). -/
def Obligations.StepRunsTheDecodedCommand : Prop :=
  ∀ (s : State) (w : CmdWord) (pins : List PinState) (rest : List Event) (i : Instr),
    s.port = .command w pins :: rest →
    decode s.encs.length w = .ok i →
    step s = exec i { s with pins := pins, port := rest }

/-- Exactly one response per command: a completed command leaves a response, with and without err;
a reset leaves none (R35, R210; that a reset is an event of its own between commands is log 11). -/
def Obligations.EveryCompletedCommandAnswers : Prop :=
  (∀ (s t : State) (w : CmdWord) (pins : List PinState) (rest : List Event),
    s.port = .command w pins :: rest → step s = .next t → ∃ p, t.rsp = some p) ∧
  (∀ (s : State) (rest : List Event),
    s.port = .reset :: rest → ∃ t, step s = .next t ∧ t.rsp = none)

/-- A reset sets every register to its reset value, changes no constant of the build, and leaves the pins,
the port and the model's counter alone (R210, R212; that the last three are left is log 11). -/
def Obligations.ResetEventRestoresEveryRegister : Prop :=
  ∀ (s : State) (rest : List Event), s.port = .reset :: rest →
    ∃ t, step s = .next t ∧
      t.encs.length = s.cfg.nEnc ∧
      (∀ r ∈ t.encs, r.value.toInt = 0 ∧ r.lo.toInt = -32768 ∧ r.hi.toInt = 32767 ∧
        r.wrap = false ∧ r.prev = s.cfg.prevReset ∧ r.acc.toInt = 0) ∧
      t.cfgDone = false ∧ t.rsp = none ∧
      t.cfg = s.cfg ∧ t.pins = s.pins ∧ t.port = rest ∧ t.draws = s.draws

/-- R40: the reset values in every build, with every pull-up enable 0 and the response port idle; PREV is
PREV_RESET, 0b00 in the build `State.reset` uses; and under the reset bounds an Apply saturates. -/
def Obligations.ResetStateHasTheResetValues : Prop :=
  (∀ (c : Config),
    (State.resetOf c).cfg = c ∧
    (State.resetOf c).encs.length = c.nEnc ∧
    (∀ r ∈ (State.resetOf c).encs, r.value.toInt = 0 ∧ r.lo.toInt = VMIN ∧ r.hi.toInt = VMAX ∧
      r.wrap = false ∧ r.prev = c.prevReset ∧ r.acc.toInt = 0 ∧
      ∀ raw, ∃ v, applyBounds raw r.lo.toInt r.hi.toInt r.wrap = some v ∧
        Applied raw VMIN VMAX false v) ∧
    (State.resetOf c).cfgDone = false ∧
    (∀ b ∈ (State.resetOf c).puEn, b = false) ∧
    (State.resetOf c).rsp = none) ∧
  State.reset = State.resetOf Config.reference ∧
  Config.reference.prevReset = 0b00#2

/-! ### The encoder manager: NOP, BEGIN, POLL -/

/-- R172: NOP is the all-zero word; it completes, reads and writes no register and answers `data = 0`,
`err = 0`. -/
def Obligations.NopChangesNothing : Prop :=
  (∀ n, decode n 0x000000000000#48 = .ok .nop) ∧
  ∀ (s : State), exec .nop s = .next { s with rsp := ok 0#16 }

/-- R173: BEGIN is the word 0x100000000000; it sets CFG_DONE and nothing else, every PU_EN[i] then equals
PULLUP[i], the response is `data = 0`, and a second BEGIN changes nothing. -/
def Obligations.BeginSetsCfgDoneOnly : Prop :=
  (∀ n, decode n 0x100000000000#48 = .ok .begin_) ∧
  ∀ (s : State), ∃ t,
    t = { s with cfgDone := true, rsp := ok 0#16 } ∧
    exec .begin_ s = .next t ∧
    t.puEn = s.cfg.wiring.map (fun k => k.pullUp) ∧
    exec .begin_ t = .next t

/-- R36: PU_EN[i] = CFG_DONE and PULLUP[i], for every encoder of the build. -/
def Obligations.PullUpEnableIsCfgDoneAndPullUp : Prop :=
  ∀ (s : State) (i : Nat) (k : Wiring), s.cfg.wiring[i]? = some k →
    s.puEn[i]? = some (s.cfgDone && k.pullUp)

/-- CFG_DONE is set by BEGIN alone and cleared by no command (R27, R174, R211). -/
def Obligations.OnlyBeginWritesCfgDone : Prop :=
  ∀ (i : Instr) (s t : State), exec i s = .next t →
    t.cfgDone = (s.cfgDone || decide (i = .begin_))

/-- No command's effect on the encoder registers depends on CFG_DONE; in particular POLL does not test it
(R27, R176). Nor does a response: R20 lets CFG_DONE drive the PU_EN outputs and nothing else. What R108
and R53 leave free is compared at one draw: that the data of an out-of-domain XY2I or I2XY then agrees is
the model's choice of log 5 (a free value is a function of the draw's number and the operands), and that a
pin level the list does not give then agrees is log 4; the spec says neither. -/
def Obligations.CfgDoneGovernsNoEncoder : Prop :=
  ∀ (i : Instr) (s t : State) (b : Bool), exec i s = .next t →
    ∃ t', exec i { s with cfgDone := b } = .next t' ∧ t'.encs = t.encs ∧ t'.rsp = t.rsp

/-- PinRead(i) answers the level that stands at the pins of encoder i, both bits of it (R53; that the
levels stand in the state while a command runs is log 4). -/
def Obligations.PinReadAnswersThePresentedLevel : Prop :=
  ∀ (s : State) (i : Nat) (p : PinState), s.pins[i]? = some p → pinRead s i = p

/-- POLL completes whenever no encoder's step is refused, and then every encoder has taken its decoder step
with its own PinRead; only the encoder records, the response and the counter of draws change (R175; the
counter is log 5). -/
def Obligations.PollStepsEveryEncoder : Prop :=
  ∀ (s : State),
    (∀ (i : Nat) (r : Encoder), s.encs[i]? = some r → r.step s.cfg.clickStep (pinRead s i) ≠ none) →
    ∃ es, exec .poll s = .next { s with encs := es, rsp := ok 0#16, draws := s.draws + 1 } ∧
      es.length = s.encs.length ∧
      ∀ (i : Nat) (r r' : Encoder) (d : Int), s.encs[i]? = some r →
        r.step s.cfg.clickStep (pinRead s i) = some (r', d) → es[i]? = some r'

/-- POLL does to encoder e exactly what SAMPLE e does with PinRead(e) as its operand (R130, R175). -/
def Obligations.PollIsSampleOfEveryEncoder : Prop :=
  ∀ (s t : State) (e : BitVec 8), exec .poll s = .next t →
    ∃ u, exec (.sample e (pinRead s e.toNat)) s = .next u ∧ u.encs[e.toNat]? = t.encs[e.toNat]?

/-- A POLL is refused for the lowest encoder whose step is refused (R175, R195; log 7). -/
def Obligations.PollRefusalNamesTheLowestEncoder : Prop :=
  ∀ (s : State) (i : Nat) (r : Encoder),
    s.encs[i]? = some r →
    r.step s.cfg.clickStep (pinRead s i) = none →
    (∀ (j : Nat) (r' : Encoder), j < i → s.encs[j]? = some r' →
      r'.step s.cfg.clickStep (pinRead s j) ≠ none) →
    exec .poll s = .refused (.boundsPrecondition i)

/-- A POLL in which every PinRead equals PREV changes no register, whatever the bounds (R58, R124, R175;
the counter of draws, log 5, is not the spec's state). -/
def Obligations.PollWithoutMotionChangesNothing : Prop :=
  ∀ (s : State), (∀ (i : Nat) (r : Encoder), s.encs[i]? = some r → pinRead s i = r.prev) →
    exec .poll s = .next { s with rsp := ok 0#16, draws := s.draws + 1 }

/-- The steps of different encoders share nothing: what POLL does to encoder i depends on its record, its
pins and CLICK_STEP alone (R120, R175). -/
def Obligations.PollTreatsEncodersApart : Prop :=
  ∀ (s s' t t' : State) (i : Nat),
    s.cfg.clickStep = s'.cfg.clickStep → s.encs[i]? = s'.encs[i]? → pinRead s i = pinRead s' i →
    exec .poll s = .next t → exec .poll s' = .next t' → t.encs[i]? = t'.encs[i]?

/-! ### The quadrature decoder: SAMPLE and the step -/

/-- The key is previous ++ current and the table is the printed one (R121, R122). -/
def Obligations.TransitionTableIsAsPrinted : Prop :=
  (∀ p c : PinState, (quadKey p c).toNat = 4 * p.toNat + c.toNat) ∧
  (∀ k : BitVec 4, (qtable k).toInt = qtableAsPrinted.getD k.toNat 0)

/-- A transition and its reverse have opposite sub-steps; a sub-step is non-zero exactly when one bit
differs; it is +1 exactly on (00,01), (01,11), (11,10), (10,00) (R123, which the spec derives from
R122). -/
def Obligations.TransitionTableIsGrayConsistent : Prop :=
  (∀ p c : PinState, (qtable (p ++ c)).toInt = - (qtable (c ++ p)).toInt) ∧
  (∀ p c : PinState, (qtable (p ++ c)).toInt ≠ 0 ↔ (p ^^^ c = 0b01#2 ∨ p ^^^ c = 0b10#2)) ∧
  (∀ p c : PinState, (qtable (p ++ c)).toInt = 1 ↔
    (p, c) ∈ [(0b00#2, 0b01#2), (0b01#2, 0b11#2), (0b11#2, 0b10#2), (0b10#2, 0b00#2)])

/-- The whole step, rule by rule (R124 to R128): what it does on a zero sub-step, on a sub-step that leaves
a sum of magnitude below 2, on one that emits, and when it is refused. -/
def Obligations.DecoderStepFollowsItsRules : Prop :=
  ∀ (click : ClickStep) (r : Encoder) (cur : PinState),
    (subStep r.prev cur = 0 → r.step click cur = some (r, 0)) ∧
    (subStep r.prev cur ≠ 0 →
      (r.acc.toInt + subStep r.prev cur ≠ 2 ∧ r.acc.toInt + subStep r.prev cur ≠ -2 →
        ∃ acc, acc.toInt = r.acc.toInt + subStep r.prev cur ∧
          r.step click cur = some ({ r with prev := cur, acc := acc }, 0)) ∧
      (r.acc.toInt + subStep r.prev cur = 2 ∨ r.acc.toInt + subStep r.prev cur = -2 →
        (r.lo.toInt ≤ r.hi.toInt → ∃ v : Reg,
          Applied (r.value.toInt + subStep r.prev cur * click.toInt) r.lo.toInt r.hi.toInt r.wrap
            v.toInt ∧
          r.step click cur =
            some ({ r with prev := cur, acc := .zero, value := v },
              r.acc.toInt + subStep r.prev cur)) ∧
        (r.hi.toInt < r.lo.toInt → r.step click cur = none)))

/-- SAMPLE on a null or invalid key completes, changes no register and answers 0, whatever the bounds
(R124, R130). -/
def Obligations.SampleOnZeroSubStepChangesNothing : Prop :=
  ∀ (s : State) (e : BitVec 8) (ab : PinState) (r : Encoder),
    s.encs[e.toNat]? = some r → subStep r.prev ab = 0 →
    exec (.sample e ab) s = .next { s with rsp := ok 0#16 }

/-- SAMPLE on a valid key whose sum stays below magnitude 2 completes: PREV takes the sample, ACC the sum,
VALUE and every other register is unchanged, and it answers 0, whatever the bounds (R125, R126, R128). -/
def Obligations.SampleAccumulatesAPendingSubStep : Prop :=
  ∀ (s : State) (e : BitVec 8) (ab : PinState) (r : Encoder),
    s.encs[e.toNat]? = some r → subStep r.prev ab ≠ 0 →
    r.acc.toInt + subStep r.prev ab ≠ 2 → r.acc.toInt + subStep r.prev ab ≠ -2 →
    ∃ acc, acc.toInt = r.acc.toInt + subStep r.prev ab ∧
      exec (.sample e ab) s =
        .next { s with encs := s.encs.set e.toNat { r with prev := ab, acc := acc }, rsp := ok 0#16 }

/-- SAMPLE on a valid key whose sum reaches magnitude 2, with LO ≤ HI, completes: PREV takes the sample, ACC
goes to 0, VALUE becomes Apply of the value one click away, the delta is answered, and nothing else
changes (R125 to R128, R130). -/
def Obligations.SampleEmitsAClick : Prop :=
  ∀ (s : State) (e : BitVec 8) (ab : PinState) (r : Encoder),
    s.encs[e.toNat]? = some r → subStep r.prev ab ≠ 0 →
    (r.acc.toInt + subStep r.prev ab = 2 ∨ r.acc.toInt + subStep r.prev ab = -2) →
    r.lo.toInt ≤ r.hi.toInt →
    ∃ v d : Reg,
      Applied (r.value.toInt + subStep r.prev ab * s.cfg.clickStep.toInt) r.lo.toInt r.hi.toInt
        r.wrap v.toInt ∧
      d.toInt = r.acc.toInt + subStep r.prev ab ∧
      exec (.sample e ab) s =
        .next { s with encs := s.encs.set e.toNat { r with prev := ab, acc := .zero, value := v },
                       rsp := ok d }

/-- SAMPLE is refused exactly when its step emits with LO > HI, and an index that selects no encoder makes
it illegal (R51, R130, R154). -/
def Obligations.SampleStopsOnlyOnACrossedEmission : Prop :=
  (∀ (s : State) (e : BitVec 8) (ab : PinState) (r : Encoder), s.encs[e.toNat]? = some r →
    (exec (.sample e ab) s = .refused (.boundsPrecondition e.toNat) ↔
      ((r.acc.toInt + subStep r.prev ab = 2 ∨ r.acc.toInt + subStep r.prev ab = -2) ∧
        r.hi.toInt < r.lo.toInt))) ∧
  (∀ (s : State) (e : BitVec 8) (ab : PinState), s.encs.length ≤ e.toNat →
    exec (.sample e ab) s = .next { s with rsp := illegal })

/-- Sub-steps are conserved: over any sequence of samples of one encoder, ACC before plus the sub-steps
counted is ACC after plus the deltas emitted; the sub-steps counted agree modulo 4 with the progress round
the cycle of PREV, the last valid pin state (not of the pins, which may have skipped a state: R213, R220);
and the deltas sum to an even number (R125, R126, R127, R131, R132). -/
def Obligations.SubStepsAreConserved : Prop :=
  ∀ (click : ClickStep) (r r' : Encoder) (cs : List PinState) (sub del : Int),
    samples click r cs = some (r', sub, del) →
    r.acc.toInt + sub = r'.acc.toInt + del ∧
    4 ∣ (sub - (phase r'.prev - phase r.prev)) ∧
    2 ∣ del

/-- With LO ≤ HI no sequence of samples is refused, the bounds and the policy stay, and with wraparound
VALUE counts the clicks modulo the span: it moves by CLICK_STEP per emitted ±2 (R128, R151, R152). -/
def Obligations.WrappedValueCountsClicks : Prop :=
  ∀ (click : ClickStep) (r : Encoder) (cs : List PinState),
    r.lo.toInt ≤ r.hi.toInt →
    ∃ r' sub clicks, samples click r cs = some (r', sub, 2 * clicks) ∧
      r'.lo = r.lo ∧ r'.hi = r.hi ∧ r'.wrap = r.wrap ∧
      (r.wrap = true →
        (r.hi.toInt - r.lo.toInt + 1) ∣
          (r'.value.toInt - (r.value.toInt + clicks * click.toInt)))

/-- A clean detent is one click: from ACC = 0 two valid samples of one sign answer 0 and then ±2, and VALUE
takes one Apply (R131, which the spec derives from R129 and R123). -/
def Obligations.CleanDetentIsOneClick : Prop :=
  ∀ (s : State) (e : BitVec 8) (r : Encoder) (c1 c2 : PinState),
    s.encs[e.toNat]? = some r → r.acc.toInt = 0 → r.lo.toInt ≤ r.hi.toInt →
    subStep r.prev c1 ≠ 0 → subStep c1 c2 = subStep r.prev c1 →
    ∃ (s1 s2 : State) (v d : Reg),
      exec (.sample e c1) s = .next s1 ∧ s1.rsp = ok 0#16 ∧
      exec (.sample e c2) s1 = .next s2 ∧ s2.rsp = ok d ∧ d.toInt = 2 * subStep r.prev c1 ∧
      Applied (r.value.toInt + subStep r.prev c1 * s.cfg.clickStep.toInt) r.lo.toInt r.hi.toInt
        r.wrap v.toInt ∧
      s2.encs[e.toNat]? = some { r with prev := c2, value := v }

/-- A bounce cancels itself: from ACC = 0 a valid sample and the sample that returns answer 0 and 0 and
leave every register as it was, whatever the bounds (R131, which the spec derives from R129 and R123). -/
def Obligations.BounceCancelsItself : Prop :=
  ∀ (s : State) (e : BitVec 8) (r : Encoder) (c : PinState),
    s.encs[e.toNat]? = some r → r.acc.toInt = 0 → subStep r.prev c ≠ 0 →
    ∃ s1 s2 : State,
      exec (.sample e c) s = .next s1 ∧ s1.rsp = ok 0#16 ∧
      exec (.sample e r.prev) s1 = .next s2 ∧ s2 = { s with rsp := ok 0#16 }

/-- Two clicks in a full cycle: from ACC = 0 the four positive transitions answer 0, +2, 0, +2, bring PREV
and ACC back, and move a VALUE with room for it by 2·CLICK_STEP (R132, which the spec derives from R129). -/
def Obligations.FullCycleIsTwoClicks : Prop :=
  ∀ (click : ClickStep) (r : Encoder),
    r.acc.toInt = 0 → r.lo.toInt ≤ r.value.toInt →
    r.value.toInt + 2 * click.toInt ≤ r.hi.toInt →
    ∃ (r1 r2 r3 r4 : Encoder),
      r.step click (forward r.prev) = some (r1, 0) ∧
      r1.step click (forward (forward r.prev)) = some (r2, 2) ∧
      r2.step click (forward (forward (forward r.prev))) = some (r3, 0) ∧
      r3.step click (forward (forward (forward (forward r.prev)))) = some (r4, 2) ∧
      r4.prev = r.prev ∧ r4.acc = r.acc ∧ r4.value.toInt = r.value.toInt + 2 * click.toInt

/-- Only SAMPLE and POLL touch PREV and ACC (R134). -/
def Obligations.OnlySamplingTouchesDecoderState : Prop :=
  ∀ (i : Instr) (s t : State),
    i ≠ .poll → (∀ e ab, i ≠ .sample e ab) → exec i s = .next t →
    t.encs.map (fun r => (r.prev, r.acc)) = s.encs.map (fun r => (r.prev, r.acc))

/-! ### The bounds policy: Apply, SETBOUNDS, SETVALUE, GETVALUE -/

/-- What the spec derives from R151 as R153: for lo ≤ hi the result lies in lo .. hi and fits a register
whose bounds do; a raw value in the range is returned under either policy; applying twice is applying
once. -/
def Obligations.ApplyResultLiesInTheBounds : Prop :=
  ∀ (raw lo hi : Int) (wrap : Bool), lo ≤ hi →
    ∃ v, applyBounds raw lo hi wrap = some v ∧ lo ≤ v ∧ v ≤ hi ∧
      (VMIN ≤ lo → hi ≤ VMAX → signed16 (bits16 v) = v) ∧
      (lo ≤ raw → raw ≤ hi → v = raw) ∧
      applyBounds v lo hi wrap = some v

/-- What the spec derives from R151 as R152: clipping keeps a value in the range and takes one outside to
the nearest bound; wrapping takes one above hi to lo, one below lo to hi, and any number of spans away to
the same place; with lo = hi both policies answer lo. -/
def Obligations.ApplyClipsOrWrapsAround : Prop :=
  ∀ (raw lo hi : Int), lo ≤ hi →
    (raw < lo → applyBounds raw lo hi false = some lo) ∧
    (hi < raw → applyBounds raw lo hi false = some hi) ∧
    (lo ≤ raw → raw ≤ hi → applyBounds raw lo hi false = some raw) ∧
    (∃ v, applyBounds raw lo hi true = some v ∧ Applied raw lo hi true v) ∧
    applyBounds (hi + 1) lo hi true = some lo ∧
    applyBounds (lo - 1) lo hi true = some hi ∧
    (∀ k, applyBounds (raw + k * (hi - lo + 1)) lo hi true = applyBounds raw lo hi true) ∧
    (lo = hi → ∀ wrap, applyBounds raw lo hi wrap = some lo)

/-- What the spec derives from R151 as R155: with the full-range bounds, clipping saturates and returns
every register value unchanged, and wraparound is two's-complement wraparound. -/
def Obligations.FullRangeBoundsSaturateOrWrap : Prop :=
  applyBounds (VMAX + 1) VMIN VMAX false = some VMAX ∧
  applyBounds (VMIN - 1) VMIN VMAX false = some VMIN ∧
  (∀ v : Reg, applyBounds v.toInt VMIN VMAX false = some v.toInt) ∧
  applyBounds (VMAX + 1) VMIN VMAX true = some VMIN ∧
  applyBounds (VMIN - 1) VMIN VMAX true = some VMAX ∧
  (∀ raw : Int, applyBounds raw VMIN VMAX true = some (BitVec.ofInt 16 raw).toInt)

/-- R156: SETBOUNDS is the word of format EB; it completes for every lo and hi, crossed or not: it stores
the three operands, leaves VALUE, PREV, ACC and all else alone, answers 0, and repeated changes nothing; an
index that selects no encoder makes it illegal. -/
def Obligations.SetboundsStoresItsOperands : Prop :=
  (∀ (n : Nat) (e : BitVec 8) (lo hi : Reg) (wrap : Bool), e.toNat < n →
    decode n (0x4#4 ++ e ++ 0#3 ++ BitVec.ofBool wrap ++ hi ++ lo) =
      .ok (.setbounds e lo hi wrap)) ∧
  (∀ (s : State) (e : BitVec 8) (lo hi : Reg) (wrap : Bool) (r : Encoder),
    s.encs[e.toNat]? = some r → ∃ t,
      t = { s with encs := s.encs.set e.toNat { r with lo := lo, hi := hi, wrap := wrap },
                   rsp := ok 0#16 } ∧
      exec (.setbounds e lo hi wrap) s = .next t ∧
      exec (.setbounds e lo hi wrap) t = .next t) ∧
  (∀ (s : State) (e : BitVec 8) (lo hi : Reg) (wrap : Bool), s.encs.length ≤ e.toNat →
    exec (.setbounds e lo hi wrap) s = .next { s with rsp := illegal })

/-- R157: SETVALUE is the word of format EV; it completes when LO ≤ HI: VALUE becomes Apply of the operand
under the present bounds, nothing else changes, and it answers 0; it is refused when LO > HI, and an index
that selects no encoder makes it illegal. -/
def Obligations.SetvalueStoresTheNormalisedValue : Prop :=
  (∀ (n : Nat) (e : BitVec 8) (v : Reg), e.toNat < n →
    decode n (0x5#4 ++ e ++ 0#20 ++ v) = .ok (.setvalue e v)) ∧
  (∀ (s : State) (e : BitVec 8) (v : Reg) (r : Encoder), s.encs[e.toNat]? = some r →
    (r.lo.toInt ≤ r.hi.toInt → ∃ n : Reg,
      Applied v.toInt r.lo.toInt r.hi.toInt r.wrap n.toInt ∧
      exec (.setvalue e v) s =
        .next { s with encs := s.encs.set e.toNat { r with value := n }, rsp := ok 0#16 }) ∧
    (r.hi.toInt < r.lo.toInt →
      exec (.setvalue e v) s = .refused (.boundsPrecondition e.toNat))) ∧
  (∀ (s : State) (e : BitVec 8) (v : Reg), s.encs.length ≤ e.toNat →
    exec (.setvalue e v) s = .next { s with rsp := illegal })

/-- R158: GETVALUE is the word of format E; it completes in every state, crossed bounds or not: it answers
VALUE in two's complement and changes nothing; an index that selects no encoder makes it illegal. -/
def Obligations.GetvalueAnswersTheValue : Prop :=
  (∀ (n : Nat) (e : BitVec 8), e.toNat < n →
    decode n (0x6#4 ++ e ++ 0#36) = .ok (.getvalue e)) ∧
  (∀ (s : State) (e : BitVec 8) (r : Encoder), s.encs[e.toNat]? = some r →
    exec (.getvalue e) s = .next { s with rsp := ok (BitVec.ofInt 16 r.value.toInt) }) ∧
  (∀ (s : State) (e : BitVec 8), s.encs.length ≤ e.toNat →
    exec (.getvalue e) s = .next { s with rsp := illegal })

/-- R38: after a SETVALUE, a SAMPLE that answers a non-zero delta, or a POLL whose step emits one, the
encoder's VALUE lies in its bounds; after a SETBOUNDS alone it need not. -/
def Obligations.ValueLiesInBoundsAfterEveryUpdate : Prop :=
  (∀ (s t : State) (e : BitVec 8) (v : Reg) (r : Encoder),
    exec (.setvalue e v) s = .next t → t.encs[e.toNat]? = some r → r.InRange) ∧
  (∀ (s t : State) (e : BitVec 8) (ab : PinState) (d : Reg) (r : Encoder),
    exec (.sample e ab) s = .next t → t.rsp = ok d → d ≠ 0#16 →
    t.encs[e.toNat]? = some r → r.InRange) ∧
  (∀ (s t : State) (i : Nat) (r r' : Encoder) (d : Int),
    exec .poll s = .next t → s.encs[i]? = some r →
    r.step s.cfg.clickStep (pinRead s i) = some (r', d) → d ≠ 0 →
    ∃ q, t.encs[i]? = some q ∧ q.InRange) ∧
  (∃ (s t : State) (e : BitVec 8) (lo hi : Reg) (wrap : Bool),
    s.InRange ∧ exec (.setbounds e lo hi wrap) s = .next t ∧ t.Ordered ∧ ¬ t.InRange)

/-- Bounds first, then value: SETRANGE is SETBOUNDS then SETVALUE and, for lo ≤ hi, leaves the value
in the new bounds; the other order can leave it outside them (R88, R159). -/
def Obligations.BoundsThenValueLeavesValueInBounds : Prop :=
  (∀ (e : BitVec 8) (lo hi : Reg) (wrap : Bool) (v : Reg),
    setRange e lo hi wrap v = [.setbounds e lo hi wrap, .setvalue e v]) ∧
  (∀ (s : State) (e : BitVec 8) (lo hi : Reg) (wrap : Bool) (v : Reg),
    e.toNat < s.encs.length → lo.toInt ≤ hi.toInt →
    ∃ (s1 s2 : State) (r : Encoder),
      exec (.setbounds e lo hi wrap) s = .next s1 ∧ exec (.setvalue e v) s1 = .next s2 ∧
      s2.encs[e.toNat]? = some r ∧ r.lo = lo ∧ r.hi = hi ∧ r.wrap = wrap ∧
      Applied v.toInt lo.toInt hi.toInt wrap r.value.toInt) ∧
  (∃ (s s1 s2 : State) (e : BitVec 8) (lo hi : Reg) (wrap : Bool) (v : Reg) (r : Encoder),
    exec (.setvalue e v) s = .next s1 ∧ exec (.setbounds e lo hi wrap) s1 = .next s2 ∧
    s2.encs[e.toNat]? = some r ∧ r.Ordered ∧ ¬ r.InRange)

/-- SETBOUNDS e, -32768, 32767, 0 and SETVALUE e, 0 bring VALUE, LO, HI and WRAP of an encoder back to
their reset values and leave PREV and ACC (R211, which the spec derives from R70). -/
def Obligations.CommandsRestoreVisibleRegisters : Prop :=
  ∀ (s : State) (e : BitVec 8) (r : Encoder), s.encs[e.toNat]? = some r →
    ∃ s1 s2 : State,
      exec (.setbounds e 0x8000#16 0x7FFF#16 false) s = .next s1 ∧
      exec (.setvalue e 0#16) s1 = .next s2 ∧
      s2 = { s with
        encs := s.encs.set e.toNat
          { r with value := 0#16, lo := 0x8000#16, hi := 0x7FFF#16, wrap := false },
        rsp := ok 0#16 }

/-! ### The grid mapper: XY2I, I2XY, GRIDDIM -/

/-- The tilings the spec settles, and for 3 ≤ M ≤ 8 the constraints on the open one (R102, R105). -/
def Obligations.TilingIsSettledUpToTwoModules : Prop :=
  ∀ (c : Config), c.Wf →
    (c.m.val = 0 → (c.bw, c.bh) = (0, 0)) ∧
    (c.m.val = 1 → (c.bw, c.bh) = (1, 1)) ∧
    (c.m.val = 2 → (c.bw, c.bh) = (2, 1)) ∧
    (3 ≤ c.m.val → 1 ≤ c.bw ∧ 2 ≤ c.bh ∧ c.m.val ≤ c.bw * c.bh ∧ c.bw * c.bh ≤ 16)

/-- R106: XY2I is the word of format XY; in the valid domain it completes, changes nothing and answers
(by·BW + bx)·16 + (iy·4 + ix); outside it, it completes with any value, `err = 0`, and changes no register
(the model's own counter of draws, log 5, is not the spec's state). -/
def Obligations.Xy2iAnswersTheAbsoluteIndex : Prop :=
  (∀ (n : Nat) (x y : BitVec 8), decode n (0x8#4 ++ 0#28 ++ y ++ x) = .ok (.xy2i x y)) ∧
  (∀ (s : State) (x y : BitVec 8), s.cfg.Wf →
    x.toNat < s.cfg.width → y.toNat < s.cfg.height →
    ∃ d : BitVec 16,
      d.toNat = (y.toNat / 4 * s.cfg.bw + x.toNat / 4) * 16 + (y.toNat % 4 * 4 + x.toNat % 4) ∧
      exec (.xy2i x y) s = .next { s with rsp := ok d }) ∧
  (∀ (s : State) (x y : BitVec 8), (s.cfg.width ≤ x.toNat ∨ s.cfg.height ≤ y.toNat) →
    ∃ d k, exec (.xy2i x y) s = .next { s with rsp := ok d, draws := k })

/-- I2XY is the word of format I; in the valid domain it completes, changes nothing and answers by the
pseudocode of R107, which the spec derives as the inverse of R106: y in the high byte and x in the low
byte, x = bx·4 + ix and y = by·4 + iy, a cell of the grid; outside it, it completes with any value, `err =
0`, and changes no register (the model's own counter of draws, log 5, is not the spec's state). -/
def Obligations.I2xyAnswersTheCell : Prop :=
  (∀ (n : Nat) (index : BitVec 8), decode n (0x9#4 ++ 0#36 ++ index) = .ok (.i2xy index)) ∧
  (∀ (s : State) (index : BitVec 8), s.cfg.Wf →
    index.toNat < s.cfg.width * s.cfg.height →
    ∃ x y : BitVec 8,
      x.toNat = index.toNat / 16 % s.cfg.bw * 4 + index.toNat % 16 % 4 ∧
      y.toNat = index.toNat / 16 / s.cfg.bw * 4 + index.toNat % 16 / 4 ∧
      x.toNat < s.cfg.width ∧ y.toNat < s.cfg.height ∧
      exec (.i2xy index) s = .next { s with rsp := ok (y ++ x) }) ∧
  (∀ (s : State) (index : BitVec 8), s.cfg.width * s.cfg.height ≤ index.toNat →
    ∃ d k, exec (.i2xy index) s = .next { s with rsp := ok d, draws := k })

/-- Outside the valid domain, and so for every operand when M = 0, XY2I and I2XY complete with `err = 0`:
no register changes, the data is some value the statement does not say, and the draw is used up (R108;
the counter of draws is the model's, log 5). -/
def Obligations.OutOfDomainMappingAnswersAnyValue : Prop :=
  (∀ (c : Config), c.m.val = 0 → c.width = 0 ∧ c.height = 0) ∧
  (∀ (s : State) (x y : BitVec 8), (s.cfg.width ≤ x.toNat ∨ s.cfg.height ≤ y.toNat) →
    ∃ d, exec (.xy2i x y) s = .next { s with rsp := ok d, draws := s.draws + 1 }) ∧
  (∀ (s : State) (index : BitVec 8), s.cfg.width * s.cfg.height ≤ index.toNat →
    ∃ d, exec (.i2xy index) s = .next { s with rsp := ok d, draws := s.draws + 1 })

/-- R109: GRIDDIM is the word 0xA00000000000; it completes, changes nothing and answers WIDTH in the low
byte and HEIGHT in the high byte; with M = 0 it answers 0. -/
def Obligations.GriddimAnswersTheDimensions : Prop :=
  (∀ n, decode n 0xA00000000000#48 = .ok .griddim) ∧
  ∀ (s : State), s.cfg.Wf →
    ∃ w h : BitVec 8, w.toNat = s.cfg.width ∧ h.toNat = s.cfg.height ∧
      exec .griddim s = .next { s with rsp := ok (h ++ w) } ∧
      (s.cfg.m.val = 0 → h ++ w = 0x0000#16)

/-- What the spec derives as R110: on every grid of at least one module, XY2I on the valid coordinates and
I2XY on the valid indices are inverse to each other, both at the commands' responses: a bijection. -/
def Obligations.GridMappingIsABijection : Prop :=
  ∀ (s : State), s.cfg.Wf → 1 ≤ s.cfg.bw → 1 ≤ s.cfg.bh →
    (∀ x y : BitVec 8, x.toNat < s.cfg.width → y.toNat < s.cfg.height →
      ∃ n : BitVec 8, n.toNat < s.cfg.width * s.cfg.height ∧
        exec (.xy2i x y) s = .next { s with rsp := ok (n.setWidth 16) } ∧
        exec (.i2xy n) s = .next { s with rsp := ok (y ++ x) }) ∧
    (∀ n : BitVec 8, n.toNat < s.cfg.width * s.cfg.height →
      ∃ x y : BitVec 8, x.toNat < s.cfg.width ∧ y.toNat < s.cfg.height ∧
        exec (.i2xy n) s = .next { s with rsp := ok (y ++ x) } ∧
        exec (.xy2i x y) s = .next { s with rsp := ok (n.setWidth 16) })

/-- What the spec derives from R106 as R111: with BW = BH = 1 the index of (x, y) is y·4 + x on 0 ≤ x, y ≤
3, and (x, y) of an index up to 15 is (index mod 4, index div 4). -/
def Obligations.SingleModuleIsRowMajor : Prop :=
  ∀ (s : State), s.cfg.bw = 1 → s.cfg.bh = 1 →
    (∀ x y : BitVec 8, x.toNat ≤ 3 → y.toNat ≤ 3 →
      ∃ d : BitVec 16, d.toNat = y.toNat * 4 + x.toNat ∧
        exec (.xy2i x y) s = .next { s with rsp := ok d }) ∧
    (∀ n : BitVec 8, n.toNat ≤ 15 →
      ∃ x y : BitVec 8, x.toNat = n.toNat % 4 ∧ y.toNat = n.toNat / 4 ∧
        exec (.i2xy n) s = .next { s with rsp := ok (y ++ x) })

/-! ### The whole machine -/

/-- Invariant: every step keeps the state well-formed (one record per encoder of an admitted build) and
changes no constant of the build (R20, R171, R212). -/
def Obligations.EveryStepKeepsTheStateWellFormed : Prop :=
  ∀ (s t : State), s.Wf → step s = .next t → t.Wf ∧ t.cfg = s.cfg

/-- The state after reset is well-formed and in range, in `State.reset` and in every admitted build. -/
def Obligations.ResetStateIsWellFormedAndInRange : Prop :=
  (State.reset.Wf ∧ State.reset.InRange) ∧
  ∀ (c : Config), c.Wf → (State.resetOf c).Wf ∧ (State.resetOf c).InRange

/-- Invariant: every step but a SETBOUNDS keeps every VALUE within its bounds (R21, R38, R156). -/
def Obligations.EveryStepButSetboundsKeepsValuesInRange : Prop :=
  ∀ (s t : State), s.InRange →
    (∀ w pins rest e lo hi wrap, s.port = .command w pins :: rest →
      decode s.encs.length w ≠ .ok (.setbounds e lo hi wrap)) →
    step s = .next t → t.InRange

/-- The block never hangs while no bounds are crossed: whatever is presented, the next step is taken
(R192, R222). -/
def Obligations.UncrossedBoundsNeverStop : Prop :=
  ∀ (s : State), s.Ordered → s.CanStep

/-- The only stop there is: a step that is not taken met an Apply under crossed bounds, of the encoder it
names (R16, R154, R192; that the refusal names it is log 7). -/
def Obligations.OnlyCrossedBoundsStopTheBlock : Prop :=
  ∀ (s : State) (why : Refusal), step s = .refused why →
    ∃ (i : Nat) (r : Encoder), why = .boundsPrecondition i ∧ s.encs[i]? = some r ∧
      r.hi.toInt < r.lo.toInt

/-- NOP, GETVALUE, XY2I, I2XY and GRIDDIM change no register, no pin and nothing pending (R32, R58). -/
def Obligations.AnsweringCommandsChangeNoRegister : Prop :=
  ∀ (i : Instr) (s t : State),
    (i = .nop ∨ (∃ e, i = .getvalue e) ∨ (∃ x y, i = .xy2i x y) ∨ (∃ n, i = .i2xy n) ∨
      i = .griddim) →
    exec i s = .next t →
    t.encs = s.encs ∧ t.cfgDone = s.cfgDone ∧ t.cfg = s.cfg ∧ t.pins = s.pins ∧ t.port = s.port

/-- BEGIN, SETBOUNDS and SETVALUE with the same operands leave the same state when repeated (R58). -/
def Obligations.SettingCommandsAreIdempotent : Prop :=
  ∀ (i : Instr) (s t : State),
    (i = .begin_ ∨ (∃ e lo hi wrap, i = .setbounds e lo hi wrap) ∨ (∃ e v, i = .setvalue e v)) →
    exec i s = .next t → exec i t = .next t

/-- The frame of the encoder commands: SAMPLE, SETBOUNDS, SETVALUE and GETVALUE leave every other encoder,
CFG_DONE, the build, the pins, the port and the counter of draws as they were (R51, R120, R156, R157). -/
def Obligations.EncoderCommandTouchesItsEncoderOnly : Prop :=
  ∀ (i : Instr) (s t : State) (e : BitVec 8), i.encField = some e → exec i s = .next t →
    (∀ j, j ≠ e.toNat → t.encs[j]? = s.encs[j]?) ∧ t.encs.length = s.encs.length ∧
    t.cfgDone = s.cfgDone ∧ t.cfg = s.cfg ∧ t.pins = s.pins ∧ t.port = s.port ∧ t.draws = s.draws
end

