-- ==== Sys2Proof/Laws/State.lean ====
section
/-! SUPPORT. One lemma per field per update of State and of an encoder record, so that no later proof unfolds
a record update. -/

namespace Sys2Proof.Machine

/-! ### respond -/

@[simp] theorem respond_cfg (d : BitVec 16) (s : State) : (respond d s).cfg = s.cfg := rfl
@[simp] theorem respond_encs (d : BitVec 16) (s : State) : (respond d s).encs = s.encs := rfl
@[simp] theorem respond_cfgDone (d : BitVec 16) (s : State) : (respond d s).cfgDone = s.cfgDone := rfl
@[simp] theorem respond_rsp (d : BitVec 16) (s : State) :
    (respond d s).rsp = some { err := false, data := d } := rfl
@[simp] theorem respond_pins (d : BitVec 16) (s : State) : (respond d s).pins = s.pins := rfl
@[simp] theorem respond_port (d : BitVec 16) (s : State) : (respond d s).port = s.port := rfl
@[simp] theorem respond_draws (d : BitVec 16) (s : State) : (respond d s).draws = s.draws := rfl

/-! ### respondDone -/

@[simp] theorem respondDone_cfg (s : State) : (respondDone s).cfg = s.cfg := rfl
@[simp] theorem respondDone_encs (s : State) : (respondDone s).encs = s.encs := rfl
@[simp] theorem respondDone_cfgDone (s : State) : (respondDone s).cfgDone = s.cfgDone := rfl
@[simp] theorem respondDone_rsp (s : State) :
    (respondDone s).rsp = some { err := false, data := 0#16 } := rfl
@[simp] theorem respondDone_pins (s : State) : (respondDone s).pins = s.pins := rfl
@[simp] theorem respondDone_port (s : State) : (respondDone s).port = s.port := rfl
@[simp] theorem respondDone_draws (s : State) : (respondDone s).draws = s.draws := rfl

/-! ### takeIllegal -/

@[simp] theorem takeIllegal_cfg (s : State) : (takeIllegal s).cfg = s.cfg := rfl
@[simp] theorem takeIllegal_encs (s : State) : (takeIllegal s).encs = s.encs := rfl
@[simp] theorem takeIllegal_cfgDone (s : State) : (takeIllegal s).cfgDone = s.cfgDone := rfl
@[simp] theorem takeIllegal_rsp (s : State) :
    (takeIllegal s).rsp = some { err := true, data := 0#16 } := rfl
@[simp] theorem takeIllegal_pins (s : State) : (takeIllegal s).pins = s.pins := rfl
@[simp] theorem takeIllegal_port (s : State) : (takeIllegal s).port = s.port := rfl
@[simp] theorem takeIllegal_draws (s : State) : (takeIllegal s).draws = s.draws := rfl

/-! ### setEncoder -/

@[simp] theorem setEncoder_cfg (i : Nat) (r : Encoder) (s : State) :
    (setEncoder i r s).cfg = s.cfg := rfl
@[simp] theorem setEncoder_encs (i : Nat) (r : Encoder) (s : State) :
    (setEncoder i r s).encs = s.encs.set i r := rfl
@[simp] theorem setEncoder_cfgDone (i : Nat) (r : Encoder) (s : State) :
    (setEncoder i r s).cfgDone = s.cfgDone := rfl
@[simp] theorem setEncoder_rsp (i : Nat) (r : Encoder) (s : State) :
    (setEncoder i r s).rsp = s.rsp := rfl
@[simp] theorem setEncoder_pins (i : Nat) (r : Encoder) (s : State) :
    (setEncoder i r s).pins = s.pins := rfl
@[simp] theorem setEncoder_port (i : Nat) (r : Encoder) (s : State) :
    (setEncoder i r s).port = s.port := rfl
@[simp] theorem setEncoder_draws (i : Nat) (r : Encoder) (s : State) :
    (setEncoder i r s).draws = s.draws := rfl

/-! ### useDraw -/

@[simp] theorem useDraw_cfg (s : State) : (useDraw s).cfg = s.cfg := rfl
@[simp] theorem useDraw_encs (s : State) : (useDraw s).encs = s.encs := rfl
@[simp] theorem useDraw_cfgDone (s : State) : (useDraw s).cfgDone = s.cfgDone := rfl
@[simp] theorem useDraw_rsp (s : State) : (useDraw s).rsp = s.rsp := rfl
@[simp] theorem useDraw_pins (s : State) : (useDraw s).pins = s.pins := rfl
@[simp] theorem useDraw_port (s : State) : (useDraw s).port = s.port := rfl
@[simp] theorem useDraw_draws (s : State) : (useDraw s).draws = s.draws + 1 := rfl

/-! ### setCfgDone -/

@[simp] theorem setCfgDone_cfg (s : State) : (setCfgDone s).cfg = s.cfg := rfl
@[simp] theorem setCfgDone_encs (s : State) : (setCfgDone s).encs = s.encs := rfl
@[simp] theorem setCfgDone_cfgDone (s : State) : (setCfgDone s).cfgDone = true := rfl
@[simp] theorem setCfgDone_rsp (s : State) : (setCfgDone s).rsp = s.rsp := rfl
@[simp] theorem setCfgDone_pins (s : State) : (setCfgDone s).pins = s.pins := rfl
@[simp] theorem setCfgDone_port (s : State) : (setCfgDone s).port = s.port := rfl
@[simp] theorem setCfgDone_draws (s : State) : (setCfgDone s).draws = s.draws := rfl

/-! ### idle -/

@[simp] theorem idle_cfg (s : State) : (idle s).cfg = s.cfg := rfl
@[simp] theorem idle_encs (s : State) : (idle s).encs = s.encs := rfl
@[simp] theorem idle_cfgDone (s : State) : (idle s).cfgDone = s.cfgDone := rfl
@[simp] theorem idle_rsp (s : State) : (idle s).rsp = none := rfl
@[simp] theorem idle_pins (s : State) : (idle s).pins = s.pins := rfl
@[simp] theorem idle_port (s : State) : (idle s).port = s.port := rfl
@[simp] theorem idle_draws (s : State) : (idle s).draws = s.draws := rfl

/-! ### accept -/

@[simp] theorem accept_cfg (p : List PinState) (es : List Event) (s : State) :
    (accept p es s).cfg = s.cfg := rfl
@[simp] theorem accept_encs (p : List PinState) (es : List Event) (s : State) :
    (accept p es s).encs = s.encs := rfl
@[simp] theorem accept_cfgDone (p : List PinState) (es : List Event) (s : State) :
    (accept p es s).cfgDone = s.cfgDone := rfl
@[simp] theorem accept_rsp (p : List PinState) (es : List Event) (s : State) :
    (accept p es s).rsp = s.rsp := rfl
@[simp] theorem accept_pins (p : List PinState) (es : List Event) (s : State) :
    (accept p es s).pins = p := rfl
@[simp] theorem accept_port (p : List PinState) (es : List Event) (s : State) :
    (accept p es s).port = es := rfl
@[simp] theorem accept_draws (p : List PinState) (es : List Event) (s : State) :
    (accept p es s).draws = s.draws := rfl

/-! ### takeReset -/

@[simp] theorem takeReset_cfg (s : State) : (takeReset s).cfg = s.cfg := rfl
@[simp] theorem takeReset_encs (s : State) :
    (takeReset s).encs = List.replicate s.cfg.nEnc (Encoder.reset s.cfg) := rfl
@[simp] theorem takeReset_cfgDone (s : State) : (takeReset s).cfgDone = false := rfl
@[simp] theorem takeReset_rsp (s : State) : (takeReset s).rsp = none := rfl
@[simp] theorem takeReset_pins (s : State) : (takeReset s).pins = s.pins := rfl
@[simp] theorem takeReset_port (s : State) : (takeReset s).port = s.port := rfl
@[simp] theorem takeReset_draws (s : State) : (takeReset s).draws = s.draws := rfl

/-! ### Encoder.setBounds -/

@[simp] theorem setBounds_value (r : Encoder) (lo hi : Reg) (wrap : Bool) :
    (r.setBounds lo hi wrap).value = r.value := rfl
@[simp] theorem setBounds_lo (r : Encoder) (lo hi : Reg) (wrap : Bool) :
    (r.setBounds lo hi wrap).lo = lo := rfl
@[simp] theorem setBounds_hi (r : Encoder) (lo hi : Reg) (wrap : Bool) :
    (r.setBounds lo hi wrap).hi = hi := rfl
@[simp] theorem setBounds_wrap (r : Encoder) (lo hi : Reg) (wrap : Bool) :
    (r.setBounds lo hi wrap).wrap = wrap := rfl
@[simp] theorem setBounds_prev (r : Encoder) (lo hi : Reg) (wrap : Bool) :
    (r.setBounds lo hi wrap).prev = r.prev := rfl
@[simp] theorem setBounds_acc (r : Encoder) (lo hi : Reg) (wrap : Bool) :
    (r.setBounds lo hi wrap).acc = r.acc := rfl

/-! ### The state after reset -/

@[simp] theorem resetOf_cfg (c : Config) : (State.resetOf c).cfg = c := rfl
@[simp] theorem resetOf_encs (c : Config) : (State.resetOf c).encs = List.replicate c.nEnc (Encoder.reset c) := rfl
@[simp] theorem resetOf_cfgDone (c : Config) : (State.resetOf c).cfgDone = false := rfl
@[simp] theorem resetOf_rsp (c : Config) : (State.resetOf c).rsp = none := rfl
@[simp] theorem resetOf_port (c : Config) : (State.resetOf c).port = [] := rfl

/-! ### withFetchWord -/

@[simp] theorem withFetchWord_cfg (s : State) (n w : Nat) :
    (s.withFetchWord n w).cfg = s.cfg := rfl
@[simp] theorem withFetchWord_encs (s : State) (n w : Nat) :
    (s.withFetchWord n w).encs = s.encs := rfl
@[simp] theorem withFetchWord_cfgDone (s : State) (n w : Nat) :
    (s.withFetchWord n w).cfgDone = s.cfgDone := rfl
@[simp] theorem withFetchWord_rsp (s : State) (n w : Nat) :
    (s.withFetchWord n w).rsp = s.rsp := rfl
@[simp] theorem withFetchWord_pins (s : State) (n w : Nat) :
    (s.withFetchWord n w).pins = s.pins := rfl
@[simp] theorem withFetchWord_port (s : State) (n w : Nat) :
    (s.withFetchWord n w).port = .command (BitVec.ofNat 48 (w % 2 ^ n)) s.pins :: s.port := rfl
@[simp] theorem withFetchWord_draws (s : State) (n w : Nat) :
    (s.withFetchWord n w).draws = s.draws := rfl

end Sys2Proof.Machine
end

