-- ==== Sys2Proof/Laws/Ops.lean ====
section
/-! SUPPORT. For each shared operation, one lemma that says once everything it can do; proofs cite these and
do not unfold the operation again. -/

namespace Sys2Proof.Machine

variable {s t : State} {enc : BitVec 8} {r r' : Encoder} {f : Encoder → Host.Outcome State Fault Refusal}

/-! ### Commands on one encoder -/

theorem onEncoder_of_record (h : s.encs[enc.toNat]? = some r) : onEncoder enc s f = f r := by
  simp [onEncoder, encoderAt, encIndex, h]

theorem onEncoder_of_no_record (h : s.encs.length ≤ enc.toNat) :
    onEncoder enc s f = .next (takeIllegal s) := by
  simp [onEncoder, encoderAt, encIndex, List.getElem?_eq_none h]

/-- What a command on one encoder can do: the illegal outcome, or `f` of the record. -/
theorem onEncoder_cases (enc : BitVec 8) (s : State)
    (f : Encoder → Host.Outcome State Fault Refusal) :
    (s.encs.length ≤ enc.toNat ∧ onEncoder enc s f = .next (takeIllegal s)) ∨
      ∃ r, s.encs[enc.toNat]? = some r ∧ onEncoder enc s f = f r := by
  rcases h : s.encs[enc.toNat]? with _ | r
  · have hl := List.getElem?_eq_none_iff.mp h
    exact .inl ⟨hl, onEncoder_of_no_record hl⟩
  · exact .inr ⟨r, rfl, onEncoder_of_record h⟩

/-! ### Reading and writing records -/

@[simp] theorem setEncoder_length (i : Nat) (r : Encoder) (s : State) :
    (setEncoder i r s).encs.length = s.encs.length := by simp

theorem setEncoder_same {i : Nat} (h : s.encs[i]? = some r') :
    (setEncoder i r s).encs[i]? = some r := by
  have hi : i < s.encs.length := (List.getElem?_eq_some_iff.mp h).1
  simp [hi]

theorem setEncoder_other {i j : Nat} (h : j ≠ i) :
    (setEncoder i r s).encs[j]? = s.encs[j]? := by
  simp [List.getElem?_set_ne (Ne.symm h)]

theorem setEncoder_self {i : Nat} (h : s.encs[i]? = some r) : setEncoder i r s = s := by
  obtain ⟨hi, he⟩ := List.getElem?_eq_some_iff.mp h
  have : s.encs.set i r = s.encs := by rw [← he]; exact List.set_getElem_self hi
  cases s; simp_all [setEncoder]

theorem pinRead_of_given {i : Nat} {p : PinState} (h : s.pins[i]? = some p) : pinRead s i = p := by
  simp [pinRead, h]

/-- `pinRead` depends on the pins and the counter of draws alone. -/
theorem pinRead_congr {s s' : State} (hp : s.pins = s'.pins) (hd : s.draws = s'.draws) :
    pinRead s = pinRead s' := by
  funext i; simp [pinRead, hp, hd]

/-! ### Apply and the write of VALUE -/

/-- What Apply can answer. -/
theorem applyBounds_cases {raw lo hi v : Int} {wrap : Bool}
    (h : applyBounds raw lo hi wrap = some v) :
    lo ≤ hi ∧
      ((wrap = false ∧ v = clamp raw lo hi) ∨
        (wrap = true ∧ v = lo + fmod (raw - lo) (hi - lo + 1))) := by
  unfold applyBounds at h
  split at h
  · cases h
  · cases wrap <;> simp_all

theorem applyBounds_of_le {raw lo hi : Int} {wrap : Bool} (h : lo ≤ hi) :
    applyBounds raw lo hi wrap =
      some (if wrap then lo + fmod (raw - lo) (hi - lo + 1) else clamp raw lo hi) := by
  cases wrap <;> simp [applyBounds, not_lt.mpr h]

theorem applyBounds_of_lt {raw lo hi : Int} {wrap : Bool} (h : hi < lo) :
    applyBounds raw lo hi wrap = none := by
  simp [applyBounds, h]

/-- What the write of a normalised VALUE can do. -/
theorem normalise_cases {raw : Int} (h : r.normalise raw = some r') :
    ∃ v, applyBounds raw r.lo.toInt r.hi.toInt r.wrap = some v ∧
      r' = { r with value := bits16 v } := by
  unfold Encoder.normalise at h
  split at h
  · cases h
  · rename_i v hv
    exact ⟨v, hv, by simpa using h.symm⟩

theorem normalise_of_some {raw v : Int}
    (h : applyBounds raw r.lo.toInt r.hi.toInt r.wrap = some v) :
    r.normalise raw = some { r with value := bits16 v } := by
  simp [Encoder.normalise, signed16, h]

theorem normalise_eq_none_iff {raw : Int} :
    r.normalise raw = none ↔ r.hi.toInt < r.lo.toInt := by
  rcases lt_or_ge r.hi.toInt r.lo.toInt with h | h
  · simp [Encoder.normalise, signed16, applyBounds_of_lt h, h]
  · simp [Encoder.normalise, signed16, applyBounds_of_le h, h]

/-! ### The decoder step -/

/-- Everything a decoder step that is not refused can do. -/
theorem encoderStep_cases {click : ClickStep} {cur : PinState} {d : Int}
    (h : r.step click cur = some (r', d)) :
    (qtable (quadKey r.prev cur) = .zero ∧ r' = r ∧ d = 0) ∨
    (qtable (quadKey r.prev cur) ≠ .zero ∧
      (r.acc.toInt + (qtable (quadKey r.prev cur)).toInt ≠ 2 ∧
        r.acc.toInt + (qtable (quadKey r.prev cur)).toInt ≠ -2) ∧
      r' = { r with prev := cur,
                    acc := SubStep.ofInt (r.acc.toInt + (qtable (quadKey r.prev cur)).toInt) } ∧
      d = 0) ∨
    (qtable (quadKey r.prev cur) ≠ .zero ∧
      d = r.acc.toInt + (qtable (quadKey r.prev cur)).toInt ∧ (d = 2 ∨ d = -2) ∧
      ∃ v, applyBounds (r.value.toInt + sign d * click.toInt) r.lo.toInt r.hi.toInt r.wrap = some v ∧
        r' = { r with prev := cur, acc := .zero, value := bits16 v }) := by
  unfold Encoder.step at h
  simp only at h
  split at h
  · rename_i hz
    cases h
    exact .inl ⟨hz, rfl, rfl⟩
  · rename_i hz
    refine .inr ?_
    split at h
    · rename_i ha
      split at h
      · cases h
      · rename_i hn
        cases h
        obtain ⟨v, hv, rfl⟩ := normalise_cases hn
        exact .inr ⟨hz, rfl, ha, v, hv, rfl⟩
    · rename_i ha
      cases h
      exact .inl ⟨hz, not_or.mp ha, rfl, rfl⟩

/-- When a decoder step is refused: it would emit and the bounds are crossed. -/
theorem encoderStep_eq_none_iff {click : ClickStep} {cur : PinState} :
    r.step click cur = none ↔
      qtable (quadKey r.prev cur) ≠ .zero ∧
      (r.acc.toInt + (qtable (quadKey r.prev cur)).toInt = 2 ∨
        r.acc.toInt + (qtable (quadKey r.prev cur)).toInt = -2) ∧
      r.hi.toInt < r.lo.toInt := by
  unfold Encoder.step
  simp only
  split
  · simp_all
  · split
    · rename_i hz ha
      split
      · rename_i hn
        have := normalise_eq_none_iff.mp hn
        exact iff_of_true rfl ⟨hz, ha, this⟩
      · rename_i hn
        refine iff_of_false (by simp) fun ⟨_, _, hlt⟩ => ?_
        have := (normalise_eq_none_iff (r := { r with prev := cur, acc := .zero })
          (raw := signed16 r.value + sign (r.acc.toInt + (qtable (quadKey r.prev cur)).toInt) *
            click.toInt)).mpr hlt
        simp_all
    · rename_i hz ha
      exact iff_of_false (by simp) fun h => ha h.2.1

/-- With LO ≤ HI no decoder step is refused. -/
theorem encoderStep_isSome_of_ordered {click : ClickStep} {cur : PinState}
    (h : r.lo.toInt ≤ r.hi.toInt) : ∃ p, r.step click cur = some p := by
  rcases hs : r.step click cur with _ | p
  · exact absurd (encoderStep_eq_none_iff.mp hs).2.2 (not_lt.mpr h)
  · exact ⟨p, rfl⟩

/-! ### The loop of POLL -/

/-- A loop that is not refused has stepped every record with its own pins. -/
theorem pollFrom_ok {click : ClickStep} {pin : Nat → PinState} {i : Nat} {rs es : List Encoder}
    (h : pollFrom click pin i rs = .ok es) :
    es.length = rs.length ∧
      ∀ k (q : Encoder), rs[k]? = some q →
        ∃ q' d, q.step click (pin (i + k)) = some (q', d) ∧ es[k]? = some q' := by
  induction rs generalizing i es with
  | nil => cases h; simp
  | cons q rs ih =>
    simp only [pollFrom] at h
    split at h
    · cases h
    · rename_i q' d hq
      split at h
      · cases h
      · rename_i es' hes
        cases h
        obtain ⟨hlen, hall⟩ := ih hes
        refine ⟨by simp [hlen], fun k => ?_⟩
        cases k with
        | zero => rintro _ ⟨⟩; exact ⟨q', d, hq, rfl⟩
        | succ k =>
          intro q₀ hk
          have := hall k q₀ (by simpa using hk)
          simpa [Nat.add_assoc, Nat.add_comm 1 k] using this

/-- A refused loop names the lowest encoder whose step is refused. -/
theorem pollFrom_error {click : ClickStep} {pin : Nat → PinState} {i j : Nat} {rs : List Encoder}
    (h : pollFrom click pin i rs = .error j) :
    ∃ k q, j = i + k ∧ rs[k]? = some q ∧ q.step click (pin j) = none ∧
      ∀ k' q', k' < k → rs[k']? = some q' → q'.step click (pin (i + k')) ≠ none := by
  induction rs generalizing i with
  | nil => cases h
  | cons q rs ih =>
    simp only [pollFrom] at h
    split at h
    · rename_i hq
      cases h
      exact ⟨0, q, rfl, rfl, hq, fun k' _ hk' => absurd hk' (Nat.not_lt_zero _)⟩
    · rename_i q' d hq
      split at h
      · rename_i j' hes
        cases h
        obtain ⟨k, q₁, rfl, hk, hn, hlow⟩ := ih hes
        refine ⟨k + 1, q₁, by omega, by simpa using hk, hn, fun k' q₀ hk' hq₀ => ?_⟩
        cases k' with
        | zero =>
          have hqq : q = q₀ := by simpa using hq₀
          subst hqq
          simp [hq]
        | succ k' =>
          have := hlow k' q₀ (by omega) (by simpa using hq₀)
          simpa [Nat.add_assoc, Nat.add_comm 1 k'] using this
      · cases h

/-! ### The step of the machine -/

/-- Everything a step can be: idle, a reset, an illegal word, or the decoded command. -/
theorem step_cases (s : State) :
    (s.port = [] ∧ step s = .next (idle s)) ∨
    (∃ rest, s.port = .reset :: rest ∧ step s = .next (takeReset { s with port := rest })) ∨
    (∃ w pins rest why, s.port = .command w pins :: rest ∧
      decode s.encs.length w = .error why ∧ step s = .next (takeIllegal (accept pins rest s))) ∨
    (∃ w pins rest i, s.port = .command w pins :: rest ∧
      decode s.encs.length w = .ok i ∧ step s = exec i (accept pins rest s)) := by
  rcases hp : s.port with _ | ⟨⟨w, pins⟩ | _, rest⟩
  · exact .inl ⟨rfl, by simp [step, hp]⟩
  · refine .inr (.inr ?_)
    have hn : (accept pins rest s).nEnc = s.encs.length := rfl
    rcases hd : decode s.encs.length w with why | i
    · exact .inl ⟨w, pins, rest, why, rfl, hd, by simp [step, hp, runWord, decodeAt, hn, hd]⟩
    · exact .inr ⟨w, pins, rest, i, rfl, hd, by simp [step, hp, runWord, decodeAt, hn, hd]⟩
  · exact .inr (.inl ⟨rest, rfl, by simp [step, hp]⟩)

end Sys2Proof.Machine
end

