-- ==== Sys2Proof/Laws/Meanings.lean ====
section
/-! SUPPORT. For each command on the encoders, one lemma that says what its meaning can answer: the
inversion the provers cite instead of unfolding `exec`. -/

namespace Sys2Proof.Machine

variable {s t : State} {e : BitVec 8} {o : Host.Outcome State Fault Refusal}

theorem exec_sample_cases {ab : PinState} (h : exec (.sample e ab) s = o) :
    (s.encs.length ≤ e.toNat ∧ o = .next (takeIllegal s)) ∨
    (∃ r, s.encs[e.toNat]? = some r ∧ r.step s.cfg.clickStep ab = none ∧
      o = .refused (.boundsPrecondition e.toNat)) ∨
    (∃ r r' d, s.encs[e.toNat]? = some r ∧ r.step s.cfg.clickStep ab = some (r', d) ∧
      o = .next (respond (bits16 d) (setEncoder e.toNat r' s))) := by
  subst h
  simp only [exec, execSample]
  rcases onEncoder_cases e s _ with ⟨hl, he⟩ | ⟨r, hr, he⟩
  · exact .inl ⟨hl, he⟩
  · rw [he]
    rcases hs : r.step s.cfg.clickStep ab with _ | ⟨r', d⟩
    · exact .inr (.inl ⟨r, hr, hs, by simp [encIndex]⟩)
    · exact .inr (.inr ⟨r, r', d, hr, hs, by simp [encIndex]⟩)

theorem exec_setbounds_cases {lo hi : Reg} {wrap : Bool} (h : exec (.setbounds e lo hi wrap) s = o) :
    (s.encs.length ≤ e.toNat ∧ o = .next (takeIllegal s)) ∨
    (∃ r, s.encs[e.toNat]? = some r ∧
      o = .next (respondDone (setEncoder e.toNat (r.setBounds lo hi wrap) s))) := by
  subst h
  simp only [exec, execSetbounds]
  rcases onEncoder_cases e s _ with ⟨hl, he⟩ | ⟨r, hr, he⟩
  · exact .inl ⟨hl, he⟩
  · exact .inr ⟨r, hr, he⟩

theorem exec_setvalue_cases {v : Reg} (h : exec (.setvalue e v) s = o) :
    (s.encs.length ≤ e.toNat ∧ o = .next (takeIllegal s)) ∨
    (∃ r, s.encs[e.toNat]? = some r ∧ r.normalise v.toInt = none ∧
      o = .refused (.boundsPrecondition e.toNat)) ∨
    (∃ r r', s.encs[e.toNat]? = some r ∧ r.normalise v.toInt = some r' ∧
      o = .next (respondDone (setEncoder e.toNat r' s))) := by
  subst h
  simp only [exec, execSetvalue, signed16]
  rcases onEncoder_cases e s _ with ⟨hl, he⟩ | ⟨r, hr, he⟩
  · exact .inl ⟨hl, he⟩
  · rw [he]
    rcases hs : r.normalise v.toInt with _ | r'
    · exact .inr (.inl ⟨r, hr, hs, by simp [encIndex]⟩)
    · exact .inr (.inr ⟨r, r', hr, hs, by simp [encIndex]⟩)

theorem exec_getvalue_cases (h : exec (.getvalue e) s = o) :
    (s.encs.length ≤ e.toNat ∧ o = .next (takeIllegal s)) ∨
    (∃ r, s.encs[e.toNat]? = some r ∧ o = .next (respond r.value s)) := by
  subst h
  simp only [exec, execGetvalue]
  rcases onEncoder_cases e s _ with ⟨hl, he⟩ | ⟨r, hr, he⟩
  · exact .inl ⟨hl, he⟩
  · exact .inr ⟨r, hr, by rw [he]; simp [bits16, signed16]⟩

theorem exec_poll_cases (h : exec .poll s = o) :
    (∃ i, pollFrom s.cfg.clickStep (pinRead s) 0 s.encs = .error i ∧
      o = .refused (.boundsPrecondition i)) ∨
    (∃ es, pollFrom s.cfg.clickStep (pinRead s) 0 s.encs = .ok es ∧
      o = .next (respondDone (useDraw { s with encs := es }))) := by
  subst h
  simp only [exec, execPoll]
  rcases hp : pollFrom s.cfg.clickStep (pinRead s) 0 s.encs with i | es
  · exact .inl ⟨i, rfl, rfl⟩
  · exact .inr ⟨es, rfl, rfl⟩

theorem exec_xy2i_cases {x y : BitVec 8} (h : exec (.xy2i x y) s = o) :
    (x.toNat < s.cfg.width ∧ y.toNat < s.cfg.height ∧
      o = .next (respond (zext16 (BitVec.ofNat 8 (xyToIndex s.cfg.bw x.toNat y.toNat))) s)) ∨
    ((s.cfg.width ≤ x.toNat ∨ s.cfg.height ≤ y.toNat) ∧
      o = .next (respond (Config.freeXy2i s.draws x y) (useDraw s))) := by
  subst h
  simp only [exec, execXy2i, validXY, Bool.and_eq_true, decide_eq_true_eq]
  split
  · rename_i hv; exact .inl ⟨hv.1, hv.2, rfl⟩
  · rename_i hv
    refine .inr ⟨?_, rfl⟩
    by_cases hx : x.toNat < s.cfg.width
    · exact .inr (not_lt.mp fun hy => hv ⟨hx, hy⟩)
    · exact .inl (not_lt.mp hx)

theorem exec_i2xy_cases {n : BitVec 8} (h : exec (.i2xy n) s = o) :
    (n.toNat < s.cfg.width * s.cfg.height ∧
      o = .next (respond
        (packXY (indexToXY s.cfg.bw n.toNat).1 (indexToXY s.cfg.bw n.toNat).2) s)) ∨
    (s.cfg.width * s.cfg.height ≤ n.toNat ∧
      o = .next (respond (Config.freeI2xy s.draws n) (useDraw s))) := by
  subst h
  simp only [exec, execI2xy, validIndex, decide_eq_true_eq]
  split
  · rename_i hv; exact .inl ⟨hv, rfl⟩
  · rename_i hv; exact .inr ⟨not_lt.mp hv, rfl⟩

@[simp] theorem exec_nop (s : State) : exec .nop s = .next (respondDone s) := rfl

@[simp] theorem exec_begin (s : State) : exec .begin_ s = .next (respondDone (setCfgDone s)) := rfl

@[simp] theorem exec_griddim (s : State) :
    exec .griddim s = .next (respond (packXY s.cfg.width s.cfg.height) s) := rfl

end Sys2Proof.Machine
end

