-- ==== Sys2Proof/Laws/PerInstr.lean ====
section
/-! SUPPORT. The family EncodeMatchesItsRow, proved per constructor: the word of a command meets the match
and mask of the row with the command's mnemonic (spec/30_encoding.md R81). -/

namespace Sys2Proof.Laws

/-- A word of the given fields, masked: the fields are masked one by one. -/
theorem packWord_and (op op' : BitVec 4) (enc enc' : BitVec 8) (rsv' : BitVec 3) (wrap : Bool)
    (wrap' : BitVec 1) (hi hi' lo lo' : Reg) :
    packWord op enc wrap hi lo &&& (op' ++ enc' ++ rsv' ++ wrap' ++ hi' ++ lo' : BitVec 48) =
      (op &&& op') ++ (enc &&& enc') ++ (0#3 &&& rsv') ++ (BitVec.ofBool wrap &&& wrap') ++
        (hi &&& hi') ++ (lo &&& lo') := by
  change (op ++ enc ++ 0#3 ++ BitVec.ofBool wrap ++ hi ++ lo) &&&
    (op' ++ enc' ++ rsv' ++ wrap' ++ hi' ++ lo') = _
  rw [BitVec.and_append, BitVec.and_append, BitVec.and_append, BitVec.and_append, BitVec.and_append]

theorem sampleOperand_and (ab : PinState) : (0#14 ++ ab : BitVec 16) &&& 0xFFFC#16 = 0#16 := by
  revert ab; decide

theorem indexOperand_and (index : BitVec 8) : (0#8 ++ index : BitVec 16) &&& 0xFF00#16 = 0#16 := by
  revert index; decide

namespace EncodeMatchesItsRow

/-- The row of the opcode map with the command's mnemonic is met by the command's word. -/
def Statement (i : Instr) : Prop :=
  ∃ r ∈ opcodeMap, r.mnemonic = (match i with
      | .nop => "NOP"
      | .begin_ => "BEGIN"
      | .poll => "POLL"
      | .sample _ _ => "SAMPLE"
      | .setbounds _ _ _ _ => "SETBOUNDS"
      | .setvalue _ _ => "SETVALUE"
      | .getvalue _ => "GETVALUE"
      | .xy2i _ _ => "XY2I"
      | .i2xy _ => "I2XY"
      | .griddim => "GRIDDIM") ∧
    r.matches (encode i) = true

theorem nop : Statement .nop := ⟨_, List.mem_of_getElem? (i := 0) rfl, rfl, by decide⟩

theorem begin_ : Statement .begin_ := ⟨_, List.mem_of_getElem? (i := 1) rfl, rfl, by decide⟩

theorem poll : Statement .poll := ⟨_, List.mem_of_getElem? (i := 2) rfl, rfl, by decide⟩

theorem sample (enc : BitVec 8) (ab : PinState) : Statement (.sample enc ab) := by
  refine ⟨_, List.mem_of_getElem? (i := 3) rfl, rfl, ?_⟩
  have hm : (0xF00FFFFFFFFC#48 : BitVec 48) =
      0xF#4 ++ 0#8 ++ 0x7#3 ++ 1#1 ++ 0xFFFF#16 ++ 0xFFFC#16 := by decide
  rw [Row.matches, encode, hm, packWord_and, sampleOperand_and]
  simp

theorem setbounds (enc : BitVec 8) (lo hi : Reg) (wrap : Bool) :
    Statement (.setbounds enc lo hi wrap) := by
  refine ⟨_, List.mem_of_getElem? (i := 4) rfl, rfl, ?_⟩
  have hm : (0xF00E00000000#48 : BitVec 48) = 0xF#4 ++ 0#8 ++ 0x7#3 ++ 0#1 ++ 0#16 ++ 0#16 := by
    decide
  rw [Row.matches, encode, hm, packWord_and]
  simp

theorem setvalue (enc : BitVec 8) (v : Reg) : Statement (.setvalue enc v) := by
  refine ⟨_, List.mem_of_getElem? (i := 5) rfl, rfl, ?_⟩
  have hm : (0xF00FFFFF0000#48 : BitVec 48) = 0xF#4 ++ 0#8 ++ 0x7#3 ++ 1#1 ++ 0xFFFF#16 ++ 0#16 := by
    decide
  rw [Row.matches, encode, hm, packWord_and]
  simp

theorem getvalue (enc : BitVec 8) : Statement (.getvalue enc) := by
  refine ⟨_, List.mem_of_getElem? (i := 6) rfl, rfl, ?_⟩
  have hm : (0xF00FFFFFFFFF#48 : BitVec 48) =
      0xF#4 ++ 0#8 ++ 0x7#3 ++ 1#1 ++ 0xFFFF#16 ++ 0xFFFF#16 := by decide
  rw [Row.matches, encode, hm, packWord_and]
  simp

theorem xy2i (x y : BitVec 8) : Statement (.xy2i x y) := by
  refine ⟨_, List.mem_of_getElem? (i := 7) rfl, rfl, ?_⟩
  have hm : (0xFFFFFFFF0000#48 : BitVec 48) =
      0xF#4 ++ 0xFF#8 ++ 0x7#3 ++ 1#1 ++ 0xFFFF#16 ++ 0#16 := by decide
  rw [Row.matches, encode, hm, packWord_and]
  simp

theorem i2xy (index : BitVec 8) : Statement (.i2xy index) := by
  refine ⟨_, List.mem_of_getElem? (i := 8) rfl, rfl, ?_⟩
  have hm : (0xFFFFFFFFFF00#48 : BitVec 48) =
      0xF#4 ++ 0xFF#8 ++ 0x7#3 ++ 1#1 ++ 0xFFFF#16 ++ 0xFF00#16 := by decide
  rw [Row.matches, encode, hm, packWord_and, indexOperand_and]
  simp

theorem griddim : Statement .griddim := ⟨_, List.mem_of_getElem? (i := 9) rfl, rfl, by decide⟩

end EncodeMatchesItsRow
end Sys2Proof.Laws
end

