-- ==== Sys2Proof/Tests/Slice0.lean ====
section
/-! SUPPORT. Tests: the ill-formed terms WellFormed refuses, words written out from the spec's encodings,
worked examples of spec/95_test_vectors.md and of the command rules (expected values are the spec's), and
for every statement with hypotheses a concrete state and operands that meet them. -/

namespace Sys2Proof.Tests

open Sys2Proof Sys2Proof.Machine Sys2Proof.Claims

/-! ### Small builds and states -/

/-- A build with `n` encoders, `m` modules and an open tiling. -/
def build (n : Nat) (m : Fin 9) (tiling : Nat × Nat) : Config where
  wiring := List.replicate n { pinA := 0, pinB := 1, pullUp := true }
  clickStep := .one
  prevReset := 0b00#2
  portWidth := .bits8
  m := m
  openTiling := tiling

/-- An encoder record. -/
def enc (value lo hi : Int) (wrap : Bool) (prev : PinState) (acc : SubStep) : Encoder where
  value := BitVec.ofInt 16 value
  lo := BitVec.ofInt 16 lo
  hi := BitVec.ofInt 16 hi
  wrap := wrap
  prev := prev
  acc := acc

/-- A state of one module with these encoder records and these pin levels. -/
def st (encs : List Encoder) (pins : List PinState) : State :=
  { State.resetOf (build encs.length 1 (1, 2)) with encs := encs, pins := pins }

/-- The same with these events presented. -/
def stPort (encs : List Encoder) (port : List Event) : State := { st encs [] with port := port }

/-- A state of a grid of `m` modules. -/
def grid (m : Fin 9) (tiling : Nat × Nat) : State := State.resetOf (build 1 m tiling)

/-- An encoder as reset leaves it, but for PREV and ACC. -/
def fresh (prev : PinState) (acc : SubStep) : Encoder := enc 0 (-32768) 32767 false prev acc

/-- The outcome is a next state with the property. -/
def nextIs (o : Host.Outcome State Fault Refusal) (p : State → Bool) : Bool :=
  match o with
  | .next t => p t
  | .fault _ => false
  | .refused _ => false

/-- The outcome is the refusal for encoder `i`. -/
def refusedFor (o : Host.Outcome State Fault Refusal) (i : Nat) : Bool :=
  match o with
  | .next _ => false
  | .fault _ => false
  | .refused why => decide (why = .boundsPrecondition i)

/-- The response word of the outcome is `w`. -/
def answers (o : Host.Outcome State Fault Refusal) (w : RspWord) : Bool :=
  nextIs o fun t => decide (t.rsp.map (·.word) = some w)

/-- The outcome is a next state with the response word `w` and the property. -/
def answersAnd (o : Host.Outcome State Fault Refusal) (w : RspWord) (p : State → Bool) : Bool :=
  nextIs o fun t => decide (t.rsp.map (·.word) = some w) && p t

/-! ### WellFormed: each check refuses an ill-formed term (R84, with N_ENC = 1) -/

theorem test_wellFormed_refuses_sample : Instr.wellFormed 1 (.sample 1 0b00#2) = false := by decide

theorem test_wellFormed_refuses_setbounds : Instr.wellFormed 1 (.setbounds 1 0 10 true) = false := by
  decide

theorem test_wellFormed_refuses_setvalue : Instr.wellFormed 1 (.setvalue 255 0) = false := by decide

theorem test_wellFormed_refuses_getvalue : Instr.wellFormed 0 (.getvalue 0) = false := by decide

theorem test_wellFormed_accepts_the_last_index : Instr.wellFormed 256 (.getvalue 255) = true := by decide

/-! ### Words written out bit by bit from R72 to R78 -/

theorem test_decode_nop :
    decode 1 0b0000_00000000_000_0_0000000000000000_0000000000000000#48 = .ok .nop := by decide

theorem test_decode_begin :
    decode 1 0b0001_00000000_000_0_0000000000000000_0000000000000000#48 = .ok .begin_ := by decide

theorem test_decode_poll :
    decode 1 0b0010_00000000_000_0_0000000000000000_0000000000000000#48 = .ok .poll := by decide

theorem test_decode_sample :
    decode 4 0b0011_00000010_000_0_0000000000000000_0000000000000001#48 =
      .ok (.sample 2 0b01#2) := by decide

theorem test_decode_setbounds :
    decode 4 0b0100_00000011_000_1_0000000000000101_1111111111111011#48 =
      .ok (.setbounds 3 (BitVec.ofInt 16 (-5)) 5 true) := by decide

theorem test_decode_setvalue :
    decode 1 0b0101_00000000_000_0_0000000000000000_1000000000000000#48 =
      .ok (.setvalue 0 (BitVec.ofInt 16 (-32768))) := by decide

theorem test_decode_getvalue :
    decode 256 0b0110_11111111_000_0_0000000000000000_0000000000000000#48 =
      .ok (.getvalue 255) := by decide

theorem test_decode_xy2i :
    decode 1 0b1000_00000000_000_0_0000000000000000_0000011000000101#48 = .ok (.xy2i 5 6) := by decide

theorem test_decode_i2xy :
    decode 1 0b1001_00000000_000_0_0000000000000000_0000000000111001#48 = .ok (.i2xy 57) := by decide

theorem test_decode_griddim :
    decode 1 0b1010_00000000_000_0_0000000000000000_0000000000000000#48 = .ok .griddim := by decide

/-- The illegal words of section 2.10, N_ENC = 1. -/
def illegalWords : List CmdWord :=
  [ 0x600000000001#48, 0x200100000000#48, 0x300000000004#48, 0x500000010000#48,
    0x400200000000#48, 0x801000000000#48, 0x900000000100#48, 0xA00000000001#48,
    0x000000000001#48, 0x700000000000#48, 0xB00000000000#48, 0xFFFFFFFFFFFF#48,
    0x601000000000#48, 0x6FF000000000#48 ]

theorem test_illegal_words_are_rejected :
    illegalWords.all (fun w => match decode 1 w with
      | .ok _ => false
      | .error _ => true) = true := by decide

theorem test_encode_section_3_words :
    [encode (.setbounds 0 0 10 true), encode (.setvalue 0 (BitVec.ofInt 16 (-5))), encode (.getvalue 1),
      encode (.xy2i 5 6), encode (.i2xy 57), encode (.sample 0 0b10#2)] =
    [0x4001000A0000#48, 0x50000000FFFB#48, 0x601000000000#48, 0x800000000605#48, 0x900000000039#48,
      0x300000000002#48] := by decide

theorem test_decodeTableWord_sample :
    decodeTableWord 48 0x3FF000000003 = some (.sample 255 0b11#2) := by decide +kernel

/-! ### The functions Apply and Step on the whole of sections 2.6 and 2.8 -/

/-- The rows of section 2.8: raw, lo, hi, wrap, result. -/
def applyRows : List (Int × Int × Int × Bool × Option Int) :=
  [ (5, 0, 10, false, some 5), (0, 0, 10, false, some 0), (10, 0, 10, false, some 10),
    (11, 0, 10, false, some 10), (-1, 0, 10, false, some 0), (20, 0, 10, false, some 10),
    (-32768, 100, 200, false, some 100), (5, 0, 10, true, some 5), (11, 0, 10, true, some 0),
    (-1, 0, 10, true, some 10), (20, 0, 10, true, some 9), (22, 0, 10, true, some 0),
    (-12, 0, 10, true, some 10), (32767, 0, 10, true, some 9), (-32768, 0, 10, true, some 1),
    (6, -5, 5, false, some 5), (-6, -5, 5, false, some (-5)), (6, -5, 5, true, some (-5)),
    (-6, -5, 5, true, some 5), (17, -5, 5, true, some (-5)), (-100, -5, 5, true, some (-1)),
    (7, 7, 7, false, some 7), (8, 7, 7, true, some 7), (-3, 7, 7, true, some 7),
    (32768, -32768, 32767, false, some 32767), (-32769, -32768, 32767, false, some (-32768)),
    (32768, -32768, 32767, true, some (-32768)),
    (-32769, -32768, 32767, true, some 32767), (5, 10, 0, false, none), (5, 10, 0, true, none) ]

theorem test_apply_section_2_8 :
    applyRows.all (fun (raw, lo, hi, wrap, v) => decide (applyBounds raw lo hi wrap = v)) = true := by
  decide

/-- PREV, ACC, cur, and after the step PREV', ACC' and the delta. -/
abbrev StepRow := PinState × SubStep × PinState × PinState × SubStep × Int

/-- The step does what the row says; VALUE moves by one in the direction of the delta (R128, R130). -/
def stepRowHolds : StepRow → Bool
  | (prev, acc, cur, prev', acc', delta) =>
    decide ((fresh prev acc).step .one cur =
      some (enc (delta / 2) (-32768) 32767 false prev' acc', delta))

/-- The rows of section 2.6 with PREV = 00: PREV, ACC, cur, PREV', ACC', delta. -/
def stepRows0 : List StepRow :=
  [ (0b00, .minus, 0b00, 0b00, .minus, 0), (0b00, .minus, 0b01, 0b01, .zero, 0),
    (0b00, .minus, 0b10, 0b10, .zero, -2), (0b00, .minus, 0b11, 0b00, .minus, 0),
    (0b00, .zero, 0b00, 0b00, .zero, 0), (0b00, .zero, 0b01, 0b01, .plus, 0),
    (0b00, .zero, 0b10, 0b10, .minus, 0), (0b00, .zero, 0b11, 0b00, .zero, 0),
    (0b00, .plus, 0b00, 0b00, .plus, 0), (0b00, .plus, 0b01, 0b01, .zero, 2),
    (0b00, .plus, 0b10, 0b10, .zero, 0), (0b00, .plus, 0b11, 0b00, .plus, 0) ]

/-- The rows of section 2.6 with PREV = 01: PREV, ACC, cur, PREV', ACC', delta. -/
def stepRows1 : List StepRow :=
  [ (0b01, .minus, 0b00, 0b00, .zero, -2), (0b01, .minus, 0b01, 0b01, .minus, 0),
    (0b01, .minus, 0b10, 0b01, .minus, 0), (0b01, .minus, 0b11, 0b11, .zero, 0),
    (0b01, .zero, 0b00, 0b00, .minus, 0), (0b01, .zero, 0b01, 0b01, .zero, 0),
    (0b01, .zero, 0b10, 0b01, .zero, 0), (0b01, .zero, 0b11, 0b11, .plus, 0),
    (0b01, .plus, 0b00, 0b00, .zero, 0), (0b01, .plus, 0b01, 0b01, .plus, 0),
    (0b01, .plus, 0b10, 0b01, .plus, 0), (0b01, .plus, 0b11, 0b11, .zero, 2) ]

/-- The rows of section 2.6 with PREV = 10: PREV, ACC, cur, PREV', ACC', delta. -/
def stepRows2 : List StepRow :=
  [ (0b10, .minus, 0b00, 0b00, .zero, 0), (0b10, .minus, 0b01, 0b10, .minus, 0),
    (0b10, .minus, 0b10, 0b10, .minus, 0), (0b10, .minus, 0b11, 0b11, .zero, -2),
    (0b10, .zero, 0b00, 0b00, .plus, 0), (0b10, .zero, 0b01, 0b10, .zero, 0),
    (0b10, .zero, 0b10, 0b10, .zero, 0), (0b10, .zero, 0b11, 0b11, .minus, 0),
    (0b10, .plus, 0b00, 0b00, .zero, 2), (0b10, .plus, 0b01, 0b10, .plus, 0),
    (0b10, .plus, 0b10, 0b10, .plus, 0), (0b10, .plus, 0b11, 0b11, .zero, 0) ]

/-- The rows of section 2.6 with PREV = 11: PREV, ACC, cur, PREV', ACC', delta. -/
def stepRows3 : List StepRow :=
  [ (0b11, .minus, 0b00, 0b11, .minus, 0), (0b11, .minus, 0b01, 0b01, .zero, -2),
    (0b11, .minus, 0b10, 0b10, .zero, 0), (0b11, .minus, 0b11, 0b11, .minus, 0),
    (0b11, .zero, 0b00, 0b11, .zero, 0), (0b11, .zero, 0b01, 0b01, .minus, 0),
    (0b11, .zero, 0b10, 0b10, .plus, 0), (0b11, .zero, 0b11, 0b11, .zero, 0),
    (0b11, .plus, 0b00, 0b11, .plus, 0), (0b11, .plus, 0b01, 0b01, .zero, 0),
    (0b11, .plus, 0b10, 0b10, .zero, 2), (0b11, .plus, 0b11, 0b11, .plus, 0) ]

theorem test_step_rows_prev_00 : stepRows0.all stepRowHolds = true := by decide

theorem test_step_rows_prev_01 : stepRows1.all stepRowHolds = true := by decide

theorem test_step_rows_prev_10 : stepRows2.all stepRowHolds = true := by decide

theorem test_step_rows_prev_11 : stepRows3.all stepRowHolds = true := by decide

/-! ### One command each -/

/-- R172: NOP leaves every register unchanged. -/
theorem test_nop : answersAnd (exec .nop (st [fresh 0b01 .plus] [])) 0x00000
    (fun t => t.encs == [fresh 0b01 .plus] && !t.cfgDone) = true := by decide

/-- R173's example: with PULLUP = [1, 0], PU_EN = [1, 0] after BEGIN. -/
theorem test_begin : answersAnd
    (exec .begin_ (State.resetOf { build 0 1 (1, 2) with wiring := [⟨0, 1, true⟩, ⟨2, 3, false⟩] }))
    0x00000 (fun t => t.cfgDone && t.puEn == [true, false]) = true := by decide

/-- Program P4, step 3: pins 11 and 10. -/
theorem test_poll_counts : answersAnd (exec .poll (st [fresh 0b01 .plus, fresh 0b00 .zero] [0b11, 0b10]))
    0x00000 (fun t => t.encs == [enc 1 (-32768) 32767 false 0b11 .zero, fresh 0b10 .minus]) = true := by
  decide

/-- R195: a POLL is refused for the lowest encoder that emits under crossed bounds. -/
theorem test_poll_refused : refusedFor (exec .poll
    (st [fresh 0b01 .plus, enc 0 10 0 false 0b01 .plus, enc 0 10 0 false 0b01 .plus]
      [0b11, 0b11, 0b11])) 1 = true := by decide

/-- Section 2.9: at VALUE = 32767 a click up saturates and is still reported. -/
theorem test_sample_saturates : answersAnd
    (exec (.sample 0 0b11) (st [enc 32767 (-32768) 32767 false 0b01 .plus] [])) 0x00002
    (fun t => t.encs == [enc 32767 (-32768) 32767 false 0b11 .zero]) = true := by decide

/-- Program P7: a sub-step under crossed bounds is not refused, the one that emits is. -/
theorem test_sample_crossed :
    (answers (exec (.sample 0 0b01) (st [enc 0 10 0 false 0b00 .zero] [])) 0x00000 &&
      refusedFor (exec (.sample 0 0b11) (st [enc 0 10 0 false 0b01 .plus] [])) 0) = true := by decide

/-- Section 2.9: SETBOUNDS 0, -5, 5, 1 leaves VALUE = -32768. -/
theorem test_setbounds : answersAnd
    (exec (.setbounds 0 (BitVec.ofInt 16 (-5)) 5 true) (st [enc (-32768) 0 1 false 0b00 .plus] []))
    0x00000 (fun t => t.encs == [enc (-32768) (-5) 5 true 0b00 .plus]) = true := by decide

/-- R157's example: SETVALUE 0, 11 under 0 .. 10 with wraparound stores 0. -/
theorem test_setvalue_wraps : answersAnd (exec (.setvalue 0 11) (st [enc 3 0 10 true 0b10 .minus] []))
    0x00000 (fun t => t.encs == [enc 0 0 10 true 0b10 .minus]) = true := by decide

/-- Section 2.9: SETVALUE 0, 0 under 7 .. 7 stores 7. -/
theorem test_setvalue_span_one : answersAnd (exec (.setvalue 0 0) (st [enc (-5) 7 7 false 0b00 .zero] []))
    0x00000 (fun t => t.encs == [enc 7 7 7 false 0b00 .zero]) = true := by decide

/-- R158: VALUE = -1 is answered as 0xFFFF. -/
theorem test_getvalue : answers (exec (.getvalue 1) (st [fresh 0 .zero, enc (-1) 0 0 false 0 .zero] []))
    0x0FFFF = true := by decide

/-- Section 2.3: XY2I 5, 6 on a 2 by 2 grid. -/
theorem test_xy2i : answers (exec (.xy2i 5 6) (grid 4 (2, 2))) 0x00039 = true := by decide

/-- Section 2.2: XY2I 4, 0 on two modules in one row. -/
theorem test_xy2i_next_module : answers (exec (.xy2i 4 0) (grid 2 (0, 0))) 0x00010 = true := by decide

/-- Section 2.4: I2XY 101 on a 4 by 2 grid. -/
theorem test_i2xy : answers (exec (.i2xy 101) (grid 8 (4, 2))) 0x00509 = true := by decide

/-- Section 1, S2: I2XY 5 on one module. -/
theorem test_i2xy_one_module : answers (exec (.i2xy 5) (grid 1 (0, 0))) 0x00101 = true := by decide

/-- Section 2.4: GRIDDIM on a 4 by 2 grid. -/
theorem test_griddim : answers (exec .griddim (grid 8 (4, 2))) 0x00810 = true := by decide

/-- Section 2.4: GRIDDIM with no module. -/
theorem test_griddim_no_module : answers (exec .griddim (grid 0 (0, 0))) 0x00000 = true := by decide

/-! ### One step -/

/-- Program P7, step 3: GETVALUE 1 with N_ENC = 1. -/
theorem test_step_illegal : answersAnd
    (step (stPort [fresh 0b01 .plus] [.command 0x601000000000#48 [0b11], .reset])) 0x10000
    (fun t => t.encs == [fresh 0b01 .plus] && t.port == [.reset]) = true := by decide

/-- Program P4, step 5: POLL with pins 10 and 11. -/
theorem test_step_poll : answersAnd
    (step (stPort [fresh 0b11 .zero, fresh 0b10 .minus] [.command 0x200000000000#48 [0b10, 0b11]]))
    0x00000 (fun t => t.encs ==
      [fresh 0b10 .plus, enc (-1) (-32768) 32767 false 0b11 .zero]) = true := by decide

/-- R210: a reset. -/
theorem test_step_reset : nextIs (step (stPort [enc 5 0 9 true 0b11 .minus] [.reset]))
    (fun t => t.encs == [fresh 0b00 .zero] && !t.cfgDone && t.rsp == none) = true := by decide

/-- The word that `withFetchWord` presents is the one the next step runs. -/
theorem test_step_withFetchWord : answers
    (step ((grid 4 (2, 2)).withFetchWord 48 0xA00000000000)) 0x00808 = true := by decide


/-! ### Witnesses: for each statement with hypotheses, states and operands that meet them all together,
one per clause and at the ends of the ranges -/

/-- A property of every entry of a short list, in the form the statements use. -/
theorem of_all {l : List Encoder} {P : Nat → Encoder → Prop} (h : ∀ i : Fin l.length, P i l[i])
    (i : Nat) (r : Encoder) (hr : l[i]? = some r) : P i r := by
  obtain ⟨hi, rfl⟩ := List.getElem?_eq_some_iff.mp hr
  exact h ⟨i, hi⟩

/-- One encoder about to emit, its bounds ordered. -/
def ready : State := st [enc 10 0 10 true 0b01 .plus] [0b11]

/-- One encoder about to emit, its bounds crossed. -/
def crossed : State := st [enc 5 10 0 false 0b01 .plus] [0b11]

/-- One encoder with crossed bounds whose next sub-step does not emit. -/
def crossedQuiet : State := st [enc 5 10 0 false 0b01 .minus] [0b11]

/-- One command of each kind, for encoder 0. -/
def tenCommands : List Instr :=
  [ .nop, .begin_, .poll, .sample 0 0b11, .setbounds 0 10 0 true, .setvalue 0 11, .getvalue 0,
    .xy2i 3 3, .i2xy 15, .griddim ]

/-- One legal word of each kind for N_ENC = 256, at the last encoder and the largest operands. -/
def tenWords : List CmdWord :=
  [ 0x000000000000#48, 0x100000000000#48, 0x200000000000#48, 0x3FF000000003#48, 0x4FF1FFFFFFFF#48,
    0x5FF00000FFFF#48, 0x6FF000000000#48, 0x80000000FFFF#48, 0x9000000000FF#48, 0xA00000000000#48 ]

/-- The state with one word presented. -/
def offer (s : State) (w : CmdWord) : State := { s with port := [.command w [0b11]] }

theorem witness_DecodeOfEncodeIsTheCommand :
    (∀ i ∈ tenCommands, i.wellFormed 1 = true) ∧ Instr.wellFormed 0 .poll = true ∧
      Instr.wellFormed 256 (.sample 255 0b10#2) = true := by decide

theorem witness_LegalWordIsEncodingOfItsCommand :
    (∀ w ∈ tenWords, ∃ i, decode 256 w = .ok i) ∧
      decode 256 0x4FF1FFFFFFFF#48 = .ok (.setbounds 255 0xFFFF#16 0xFFFF#16 true) :=
  ⟨by simp only [tenWords, List.forall_mem_cons]
      exact ⟨⟨_, rfl⟩, ⟨_, rfl⟩, ⟨_, rfl⟩, ⟨_, rfl⟩, ⟨_, rfl⟩, ⟨_, rfl⟩, ⟨_, rfl⟩, ⟨_, rfl⟩, ⟨_, rfl⟩,
        ⟨_, rfl⟩, by simp⟩, by decide⟩

theorem witness_OpcodeRowsAreDisjoint :
    ∀ r ∈ opcodeMap, r.matches r.pattern = true ∧ r.matches (r.pattern ||| ~~~ r.mask) = true := by
  decide

/-- Words with the reserved opcodes at the ends of their ranges. -/
def reservedWords : List CmdWord :=
  [ 0x700000000000#48, 0x7FFFFFFFFFFF#48, 0xB00000000000#48, 0xBFFFFFFFFFFF#48, 0xF00000000000#48,
    0xFFFFFFFFFFFF#48 ]

theorem reservedWords_opcode :
    ∀ w ∈ reservedWords, w.extractLsb' 44 4 = 0x7#4 ∨ 0xB ≤ (w.extractLsb' 44 4).toNat := by
  simp [reservedWords]

theorem witness_ReservedOpcodeIsIllegal : ∀ w ∈ reservedWords,
    (w.extractLsb' 44 4 = 0x7#4 ∨ 0xB ≤ (w.extractLsb' 44 4).toNat) ∧
      (offer ready w).port = .command w [0b11] :: [] :=
  fun w hw => ⟨reservedWords_opcode w hw, rfl⟩

/-- For each format, in the order of `formatsAsPrinted`, a word with its lowest must-be-zero bit set. -/
def lowestMustBeZero : List CmdWord :=
  [ 0x000000000001#48, 0x100000000001#48, 0x200000000001#48, 0x300000000004#48, 0x400200000000#48,
    0x500000010000#48, 0x600000000001#48, 0x800000010000#48, 0x900000000100#48, 0xA00000000001#48 ]

/-- For each format, in the same order, a word with its highest must-be-zero bit set. -/
def highestMustBeZero : List CmdWord :=
  [ 0x080000000000#48, 0x180000000000#48, 0x280000000000#48, 0x300800000000#48, 0x400800000000#48,
    0x500800000000#48, 0x600800000000#48, 0x880000000000#48, 0x980000000000#48, 0xA80000000000#48 ]

theorem witness_NonzeroMustBeZeroBitIsIllegal :
    (∀ p ∈ formatsAsPrinted.zip lowestMustBeZero,
      p.2.extractLsb' 44 4 = p.1.1 ∧ p.2 &&& (p.1.2 &&& 0x0FFFFFFFFFFF#48) ≠ 0#48) ∧
    (∀ p ∈ formatsAsPrinted.zip highestMustBeZero,
      p.2.extractLsb' 44 4 = p.1.1 ∧ p.2 &&& (p.1.2 &&& 0x0FFFFFFFFFFF#48) ≠ 0#48) ∧
    ∀ w, (offer ready w).port = .command w [0b11] :: [] :=
  ⟨by simp [formatsAsPrinted, lowestMustBeZero], by simp [formatsAsPrinted, highestMustBeZero],
    fun _ => rfl⟩

/-- N_ENC = 1 with index 1 (the first out of range) and 255; N_ENC = 0 with index 0. -/
theorem witness_EncoderIndexOutOfRangeIsIllegal :
    (∀ w ∈ [0x301000000000#48, 0x401000000000#48, 0x501000000000#48, 0x601000000000#48,
        0x6FF000000000#48],
      w.extractLsb' 44 4 ∈ [0x3#4, 0x4#4, 0x5#4, 0x6#4] ∧ 1 ≤ (w.extractLsb' 36 8).toNat) ∧
    (∀ w, (offer ready w).encs.length = 1 ∧ (offer ready w).port = .command w [0b11] :: []) ∧
    ((stPort [] []).encs.length ≤ ((0x300000000000#48).extractLsb' 36 8).toNat) ∧
    (stPort [] [.command 0x100000000000#48 []]).encs = [] ∧
    (stPort [] [.command 0x200000000000#48 []]).encs = [] :=
  ⟨by simp, fun _ => ⟨rfl, rfl⟩, by decide, rfl, rfl⟩

theorem witness_ErrIsSetExactlyByIllegalWords :
    (∃ why, decode (offer ready 0x601000000000#48).encs.length 0x601000000000#48 = .error why) ∧
    decode (offer ready 0x600000000000#48).encs.length 0x600000000000#48 = .ok (.getvalue 0) ∧
    ∃ t, step (offer ready 0x600000000000#48) = .next t :=
  ⟨⟨_, rfl⟩, by decide, ⟨_, rfl⟩⟩

theorem witness_StepRunsTheDecodedCommand :
    (offer ready 0x50000000000B#48).port = .command 0x50000000000B#48 [0b11] :: [] ∧
      decode (offer ready 0x50000000000B#48).encs.length 0x50000000000B#48 = .ok (.setvalue 0 11) := by
  decide

theorem witness_EveryCompletedCommandAnswers :
    (∃ t, step (offer ready 0x200000000000#48) = .next t) ∧
    (∃ t, step (offer ready 0x700000000000#48) = .next t) ∧
    (offer ready 0x200000000000#48).port = .command 0x200000000000#48 [0b11] :: [] ∧
    (stPort [fresh 0 .plus] [.reset]).port = .reset :: [] :=
  ⟨⟨_, rfl⟩, ⟨_, rfl⟩, rfl, rfl⟩

theorem witness_ResetEventRestoresEveryRegister :
    (stPort [fresh 0b11 .plus] [.reset, .command 0#48 []]).port = .reset :: [.command 0#48 []] := by
  decide

theorem witness_PullUpEnableIsCfgDoneAndPullUp :
    (ready.cfg.wiring[0]? = some ⟨0, 1, true⟩) ∧
      (State.reset.cfg.wiring[255]? = some ⟨0, 0, false⟩) := by decide +kernel

/-- Every command of `tenCommands` completes in `ready`. -/
theorem witness_every_command_completes :
    ∀ i ∈ tenCommands, ∃ t, exec i ready = .next t := by
  simp only [tenCommands, List.forall_mem_cons]
  exact ⟨⟨_, rfl⟩, ⟨_, rfl⟩, ⟨_, rfl⟩, ⟨_, rfl⟩, ⟨_, rfl⟩, ⟨_, rfl⟩, ⟨_, rfl⟩, ⟨_, rfl⟩, ⟨_, rfl⟩,
    ⟨_, rfl⟩, by simp⟩

theorem witness_OnlyBeginWritesCfgDone :
    (∃ t, exec .begin_ ready = .next t) ∧ (∃ t, exec .poll { ready with cfgDone := true } = .next t) :=
  ⟨⟨_, rfl⟩, ⟨_, rfl⟩⟩

theorem witness_CfgDoneGovernsNoEncoder : ∃ t, exec .poll ready = .next t := ⟨_, rfl⟩

theorem witness_PinReadAnswersThePresentedLevel :
    (st [fresh 0 .zero, fresh 0 .zero] [0b01, 0b10]).pins[1]? = some 0b10#2 := by decide

theorem witness_PollStepsEveryEncoder :
    (∀ (i : Nat) (r : Encoder), ready.encs[i]? = some r →
      r.step ready.cfg.clickStep (pinRead ready i) ≠ none) ∧
    (∀ (i : Nat) (r : Encoder), crossedQuiet.encs[i]? = some r →
      r.step crossedQuiet.cfg.clickStep (pinRead crossedQuiet i) ≠ none) ∧
    ready.encs[0]? = some (enc 10 0 10 true 0b01 .plus) ∧
    (enc 10 0 10 true 0b01 .plus).step ready.cfg.clickStep (pinRead ready 0) =
      some (enc 0 0 10 true 0b11 .zero, 2) :=
  ⟨of_all (by decide), of_all (by decide), by decide, by decide⟩

theorem witness_PollIsSampleOfEveryEncoder : ∃ t, exec .poll ready = .next t := ⟨_, rfl⟩

/-- Three encoders of which the last two would be refused. -/
def twoCrossed : State :=
  st [fresh 0b01 .plus, enc 0 10 0 false 0b01 .plus, enc 0 10 0 false 0b01 .plus] [0b11, 0b11, 0b11]

theorem witness_PollRefusalNamesTheLowestEncoder :
    (crossed.encs[0]? = some (enc 5 10 0 false 0b01 .plus) ∧
      (enc 5 10 0 false 0b01 .plus).step crossed.cfg.clickStep (pinRead crossed 0) = none) ∧
    (twoCrossed.encs[1]? = some (enc 0 10 0 false 0b01 .plus) ∧
      (enc 0 10 0 false 0b01 .plus).step twoCrossed.cfg.clickStep (pinRead twoCrossed 1) = none ∧
      ∀ (j : Nat) (r' : Encoder), j < 1 → twoCrossed.encs[j]? = some r' →
        r'.step twoCrossed.cfg.clickStep (pinRead twoCrossed j) ≠ none) :=
  ⟨by decide, by decide, by decide, fun j r' hj hr =>
    of_all (l := twoCrossed.encs)
      (P := fun j r' => j < 1 → r'.step twoCrossed.cfg.clickStep (pinRead twoCrossed j) ≠ none)
      (by decide) j r' hr hj⟩

theorem witness_PollWithoutMotionChangesNothing :
    ∀ (i : Nat) (r : Encoder), (st [fresh 0b10 .plus, enc 5 10 0 true 0b11 .minus] [0b10, 0b11]).encs[i]? =
      some r → pinRead (st [fresh 0b10 .plus, enc 5 10 0 true 0b11 .minus] [0b10, 0b11]) i = r.prev :=
  of_all (by decide)

theorem witness_PollTreatsEncodersApart :
    ready.cfg.clickStep =
      (st [enc 10 0 10 true 0b01 .plus, fresh 0b00 .zero] [0b11, 0b01]).cfg.clickStep ∧
    ready.encs[0]? = (st [enc 10 0 10 true 0b01 .plus, fresh 0b00 .zero] [0b11, 0b01]).encs[0]? ∧
    pinRead ready 0 = pinRead (st [enc 10 0 10 true 0b01 .plus, fresh 0b00 .zero] [0b11, 0b01]) 0 ∧
    (∃ t, exec .poll ready = .next t) ∧
    ∃ t, exec .poll (st [enc 10 0 10 true 0b01 .plus, fresh 0b00 .zero] [0b11, 0b01]) = .next t :=
  ⟨by decide, by decide, by decide, ⟨_, rfl⟩, ⟨_, rfl⟩⟩

/-- A null key, an invalid key, a sum of 0, a sum of 1, and emissions of both signs under ordered bounds
(a range of one value among them) and under crossed ones. -/
theorem witness_DecoderStepFollowsItsRules :
    subStep 0b11 0b11 = 0 ∧ subStep 0b00 0b11 = 0 ∧
    (subStep 0b00 0b01 ≠ 0 ∧ SubStep.minus.toInt + subStep 0b00 0b01 ≠ 2 ∧
      SubStep.minus.toInt + subStep 0b00 0b01 ≠ -2) ∧
    (SubStep.zero.toInt + subStep 0b00 0b10 ≠ 2 ∧ SubStep.zero.toInt + subStep 0b00 0b10 ≠ -2) ∧
    (SubStep.plus.toInt + subStep 0b01 0b11 = 2 ∧ SubStep.minus.toInt + subStep 0b01 0b00 = -2) ∧
    (enc 7 7 7 true 0b01 .plus).Ordered ∧
    (enc 5 1 0 false 0b01 .plus).hi.toInt < (enc 5 1 0 false 0b01 .plus).lo.toInt := by decide

theorem witness_SampleOnZeroSubStepChangesNothing :
    crossed.encs[(0#8).toNat]? = some (enc 5 10 0 false 0b01 .plus) ∧
      subStep 0b01 0b01 = 0 ∧ subStep 0b01 0b10 = 0 := by decide

theorem witness_SampleAccumulatesAPendingSubStep :
    crossedQuiet.encs[(0#8).toNat]? = some (enc 5 10 0 false 0b01 .minus) ∧
      subStep 0b01 0b11 ≠ 0 ∧ SubStep.minus.toInt + subStep 0b01 0b11 ≠ 2 ∧
      SubStep.minus.toInt + subStep 0b01 0b11 ≠ -2 := by decide

theorem witness_SampleEmitsAClick :
    (ready.encs[(0#8).toNat]? = some (enc 10 0 10 true 0b01 .plus) ∧ subStep 0b01 0b11 ≠ 0 ∧
      SubStep.plus.toInt + subStep 0b01 0b11 = 2 ∧ (enc 10 0 10 true 0b01 .plus).Ordered) ∧
    ((st [enc 7 7 7 false 0b01 .minus] []).encs[(0#8).toNat]? = some (enc 7 7 7 false 0b01 .minus) ∧
      subStep 0b01 0b00 ≠ 0 ∧ SubStep.minus.toInt + subStep 0b01 0b00 = -2 ∧
      (enc 7 7 7 false 0b01 .minus).Ordered) := by decide

theorem witness_SampleStopsOnlyOnACrossedEmission :
    crossed.encs[(0#8).toNat]? = some (enc 5 10 0 false 0b01 .plus) ∧
    (enc 5 10 0 false 0b01 .plus).hi.toInt < (enc 5 10 0 false 0b01 .plus).lo.toInt ∧
    exec (.sample 0 0b11) crossed = .refused (.boundsPrecondition 0) ∧
    crossed.encs.length ≤ (1#8).toNat ∧ crossed.encs.length ≤ (255#8).toNat :=
  ⟨by decide, by decide, rfl, by decide, by decide⟩

theorem witness_SubStepsAreConserved :
    samples .one (fresh 0b00 .zero) [0b01, 0b11, 0b00, 0b10, 0b10] =
      some (enc 1 (-32768) 32767 false 0b10 .plus, 3, 2) ∧
    samples .two (fresh 0b00 .minus) [] = some (fresh 0b00 .minus, 0, 0) := by decide

theorem witness_WrappedValueCountsClicks :
    (enc 10 0 10 true 0b01 .plus).Ordered ∧ (enc 10 0 10 true 0b01 .plus).wrap = true ∧
      (enc 0 7 7 true 0b01 .plus).Ordered := by decide

theorem witness_CleanDetentIsOneClick :
    (st [enc 10 0 10 true 0b00 .zero] []).encs[(0#8).toNat]? = some (enc 10 0 10 true 0b00 .zero) ∧
      SubStep.zero.toInt = 0 ∧ (enc 10 0 10 true 0b00 .zero).Ordered ∧
      (subStep 0b00 0b01 ≠ 0 ∧ subStep 0b01 0b11 = subStep 0b00 0b01) ∧
      (subStep 0b00 0b10 ≠ 0 ∧ subStep 0b10 0b11 = subStep 0b00 0b10) := by decide

theorem witness_BounceCancelsItself :
    (st [enc 5 10 0 false 0b11 .zero] []).encs[(0#8).toNat]? = some (enc 5 10 0 false 0b11 .zero) ∧
      (enc 5 10 0 false 0b11 .zero).acc.toInt = 0 ∧ subStep 0b11 0b10 ≠ 0 ∧ subStep 0b11 0b01 ≠ 0 := by
  decide

/-- Exactly as much room as two clicks need, for both click steps. -/
theorem witness_FullCycleIsTwoClicks :
    ((enc 0 0 2 false 0b10 .zero).acc.toInt = 0 ∧
      (enc 0 0 2 false 0b10 .zero).lo.toInt ≤ (enc 0 0 2 false 0b10 .zero).value.toInt ∧
      (enc 0 0 2 false 0b10 .zero).value.toInt + 2 * ClickStep.one.toInt ≤
        (enc 0 0 2 false 0b10 .zero).hi.toInt) ∧
    (enc 32763 0 32767 false 0b00 .zero).value.toInt + 2 * ClickStep.two.toInt ≤
      (enc 32763 0 32767 false 0b00 .zero).hi.toInt := by decide

theorem witness_OnlySamplingTouchesDecoderState :
    (Instr.setvalue 0 11 ≠ .poll) ∧ (∀ e ab, Instr.setvalue 0 11 ≠ .sample e ab) ∧
      ∃ t, exec (.setvalue 0 11) ready = .next t :=
  ⟨by decide, fun e ab => by simp, ⟨_, rfl⟩⟩

theorem witness_ApplyResultLiesInTheBounds :
    ((-32768 : Int) ≤ 32767 ∧ VMIN ≤ -32768 ∧ (32767 : Int) ≤ VMAX ∧ (-32768 : Int) ≤ -32768) ∧
      ((7 : Int) ≤ 7 ∧ VMIN ≤ 7 ∧ (7 : Int) ≤ VMAX) := by decide

theorem witness_ApplyClipsOrWrapsAround :
    ((0 : Int) ≤ 10) ∧ ((-1 : Int) < 0) ∧ ((10 : Int) < 11) ∧ ((0 : Int) ≤ 0 ∧ (0 : Int) ≤ 10) ∧
      ((10 : Int) ≤ 10) ∧ ((7 : Int) ≤ 7 ∧ (7 : Int) = 7) := by decide

theorem witness_SetboundsStoresItsOperands :
    ((0#8).toNat < 1 ∧ (255#8).toNat < 256) ∧
      crossed.encs[(0#8).toNat]? = some (enc 5 10 0 false 0b01 .plus) ∧
      crossed.encs.length ≤ (1#8).toNat := by decide

theorem witness_SetvalueStoresTheNormalisedValue :
    ((0#8).toNat < 1 ∧ (255#8).toNat < 256) ∧
    (ready.encs[(0#8).toNat]? = some (enc 10 0 10 true 0b01 .plus) ∧
      (enc 10 0 10 true 0b01 .plus).Ordered) ∧
    ((st [enc 0 7 7 false 0b01 .plus] []).encs[(0#8).toNat]? = some (enc 0 7 7 false 0b01 .plus) ∧
      (enc 0 7 7 false 0b01 .plus).Ordered) ∧
    (crossed.encs[(0#8).toNat]? = some (enc 5 10 0 false 0b01 .plus) ∧
      (enc 5 10 0 false 0b01 .plus).hi.toInt < (enc 5 10 0 false 0b01 .plus).lo.toInt) ∧
    crossed.encs.length ≤ (1#8).toNat := by decide

theorem witness_GetvalueAnswersTheValue :
    (255#8).toNat < 256 ∧ crossed.encs[(0#8).toNat]? = some (enc 5 10 0 false 0b01 .plus) ∧
      crossed.encs.length ≤ (1#8).toNat := by decide

theorem witness_ValueLiesInBoundsAfterEveryUpdate :
    (∃ t r, exec (.setvalue 0 11) ready = .next t ∧ t.encs[(0#8).toNat]? = some r) ∧
    (∃ t r, exec (.sample 0 0b11) ready = .next t ∧ t.rsp = ok 2#16 ∧ 2#16 ≠ 0#16 ∧
      t.encs[(0#8).toNat]? = some r) ∧
    (∃ t, exec .poll ready = .next t) ∧
    ready.encs[0]? = some (enc 10 0 10 true 0b01 .plus) ∧
    (enc 10 0 10 true 0b01 .plus).step ready.cfg.clickStep (pinRead ready 0) =
      some (enc 0 0 10 true 0b11 .zero, 2) ∧ (2 : Int) ≠ 0 :=
  ⟨⟨_, _, rfl, rfl⟩, ⟨_, _, rfl, rfl, by decide, rfl⟩, ⟨_, rfl⟩, by decide, by decide, by decide⟩

theorem witness_BoundsThenValueLeavesValueInBounds :
    (0#8).toNat < crossed.encs.length ∧ (0x8000#16).toInt ≤ (0x7FFF#16).toInt ∧
      (7#16).toInt ≤ (7#16).toInt := by decide

theorem witness_CommandsRestoreVisibleRegisters :
    crossed.encs[(0#8).toNat]? = some (enc 5 10 0 false 0b01 .plus) := by decide

/-- The ends of M and, for the open tilings, of BW·BH. -/
theorem witness_TilingIsSettledUpToTwoModules :
    ((build 0 0 (0, 0)).Wf ∧ (build 1 1 (0, 0)).Wf ∧ (build 1 2 (0, 0)).Wf) ∧
      ((build 1 3 (1, 3)).Wf ∧ (build 1 3 (2, 2)).Wf ∧ (build 1 8 (8, 2)).Wf ∧ (build 1 8 (4, 2)).Wf) :=
  ⟨by decide, by decide, by decide, by decide, by decide⟩

/-- The first and the last cell, and the first column and row outside. -/
theorem witness_Xy2iAnswersTheAbsoluteIndex :
    ((grid 8 (8, 2)).cfg.Wf ∧ (0#8).toNat < (grid 8 (8, 2)).cfg.width ∧
      (0#8).toNat < (grid 8 (8, 2)).cfg.height ∧ (31#8).toNat < (grid 8 (8, 2)).cfg.width ∧
      (7#8).toNat < (grid 8 (8, 2)).cfg.height) ∧
    ((grid 8 (8, 2)).cfg.width ≤ (32#8).toNat ∧ (grid 8 (8, 2)).cfg.height ≤ (8#8).toNat ∧
      (grid 0 (0, 0)).cfg.width ≤ (0#8).toNat) := by decide

/-- The first and the last index of the largest grid, and the first index outside a smaller one. -/
theorem witness_I2xyAnswersTheCell :
    ((grid 8 (8, 2)).cfg.Wf ∧
      (0#8).toNat < (grid 8 (8, 2)).cfg.width * (grid 8 (8, 2)).cfg.height ∧
      (255#8).toNat < (grid 8 (8, 2)).cfg.width * (grid 8 (8, 2)).cfg.height) ∧
    ((grid 1 (0, 0)).cfg.width * (grid 1 (0, 0)).cfg.height ≤ (16#8).toNat ∧
      (grid 0 (0, 0)).cfg.width * (grid 0 (0, 0)).cfg.height ≤ (0#8).toNat) := by decide

theorem witness_OutOfDomainMappingAnswersAnyValue :
    ((build 0 0 (0, 0)).m.val = 0) ∧
      ((grid 1 (0, 0)).cfg.width ≤ (4#8).toNat ∧ (grid 1 (0, 0)).cfg.height ≤ (4#8).toNat) ∧
      (grid 1 (0, 0)).cfg.width * (grid 1 (0, 0)).cfg.height ≤ (16#8).toNat := by decide

theorem witness_GriddimAnswersTheDimensions :
    (grid 8 (8, 2)).cfg.Wf ∧ (grid 0 (0, 0)).cfg.Wf ∧ (grid 0 (0, 0)).cfg.m.val = 0 := by decide

theorem witness_GridMappingIsABijection :
    ((grid 8 (8, 2)).cfg.Wf ∧ 1 ≤ (grid 8 (8, 2)).cfg.bw ∧ 1 ≤ (grid 8 (8, 2)).cfg.bh ∧
      (31#8).toNat < (grid 8 (8, 2)).cfg.width ∧ (7#8).toNat < (grid 8 (8, 2)).cfg.height ∧
      (255#8).toNat < (grid 8 (8, 2)).cfg.width * (grid 8 (8, 2)).cfg.height) ∧
    ((grid 1 (0, 0)).cfg.Wf ∧ 1 ≤ (grid 1 (0, 0)).cfg.bw ∧ 1 ≤ (grid 1 (0, 0)).cfg.bh ∧
      (0#8).toNat < (grid 1 (0, 0)).cfg.width ∧ (0#8).toNat < (grid 1 (0, 0)).cfg.height) := by decide

theorem witness_SingleModuleIsRowMajor :
    (grid 1 (0, 0)).cfg.bw = 1 ∧ (grid 1 (0, 0)).cfg.bh = 1 ∧ (3#8).toNat ≤ 3 ∧ (0#8).toNat ≤ 3 ∧
      (15#8).toNat ≤ 15 ∧ (0#8).toNat ≤ 15 := by decide

theorem witness_EveryStepKeepsTheStateWellFormed :
    ((offer ready 0x200000000000#48).Wf ∧ ∃ t, step (offer ready 0x200000000000#48) = .next t) ∧
    ((stPort [fresh 0 .plus] [.reset]).Wf ∧ ∃ t, step (stPort [fresh 0 .plus] [.reset]) = .next t) ∧
    (ready.Wf ∧ ∃ t, step ready = .next t) :=
  ⟨⟨by decide, ⟨_, rfl⟩⟩, ⟨by decide, ⟨_, rfl⟩⟩, ⟨by decide, ⟨_, rfl⟩⟩⟩

theorem witness_ResetStateIsWellFormedAndInRange : (build 256 8 (8, 2)).Wf ∧ (build 0 0 (0, 0)).Wf := by
  decide +kernel

/-- A command that is no SETBOUNDS, with VALUE at its upper bound. -/
theorem witness_EveryStepButSetboundsKeepsValuesInRange :
    (offer ready 0x200000000000#48).InRange ∧
    (∀ w pins rest e lo hi wrap, (offer ready 0x200000000000#48).port = .command w pins :: rest →
      decode (offer ready 0x200000000000#48).encs.length w ≠ .ok (.setbounds e lo hi wrap)) ∧
    ∃ t, step (offer ready 0x200000000000#48) = .next t := by
  refine ⟨by decide, ?_, ⟨_, rfl⟩⟩
  rintro w pins rest e lo hi wrap h
  simp only [offer, List.cons.injEq, Event.command.injEq] at h
  obtain ⟨⟨rfl, -⟩, -⟩ := h
  simp only [show decode (offer ready 0x200000000000#48).encs.length 0x200000000000#48 = .ok .poll by
    decide]
  simp

theorem witness_UncrossedBoundsNeverStop :
    (offer ready 0x300000000003#48).Ordered ∧ ready.Ordered ∧
      (stPort [enc 5 7 7 false 0b00 .plus] [.reset]).Ordered := by decide

theorem witness_OnlyCrossedBoundsStopTheBlock :
    step (offer crossed 0x300000000003#48) = .refused (.boundsPrecondition 0) ∧
      step (offer crossed 0x200000000000#48) = .refused (.boundsPrecondition 0) ∧
      step (offer crossed 0x500000000000#48) = .refused (.boundsPrecondition 0) :=
  ⟨rfl, rfl, rfl⟩

theorem witness_AnsweringCommandsChangeNoRegister :
    (∃ t, exec .nop crossed = .next t) ∧ (∃ t, exec (.getvalue 0) crossed = .next t) ∧
    (∃ t, exec (.getvalue 1) crossed = .next t) ∧ (∃ t, exec (.xy2i 3 3) crossed = .next t) ∧
    (∃ t, exec (.xy2i 4 0) crossed = .next t) ∧ (∃ t, exec (.i2xy 15) crossed = .next t) ∧
    (∃ t, exec (.i2xy 16) crossed = .next t) ∧ (∃ t, exec .griddim crossed = .next t) :=
  ⟨⟨_, rfl⟩, ⟨_, rfl⟩, ⟨_, rfl⟩, ⟨_, rfl⟩, ⟨_, rfl⟩, ⟨_, rfl⟩, ⟨_, rfl⟩, ⟨_, rfl⟩⟩

theorem witness_SettingCommandsAreIdempotent :
    (∃ t, exec .begin_ ready = .next t) ∧ (∃ t, exec (.setbounds 0 10 0 true) ready = .next t) ∧
    (∃ t, exec (.setvalue 0 11) ready = .next t) ∧ (∃ t, exec (.setvalue 1 11) ready = .next t) :=
  ⟨⟨_, rfl⟩, ⟨_, rfl⟩, ⟨_, rfl⟩, ⟨_, rfl⟩⟩

theorem witness_EncoderCommandTouchesItsEncoderOnly :
    (Instr.sample 0 0b11).encField = some 0 ∧ (Instr.setbounds 0 10 0 true).encField = some 0 ∧
    (Instr.setvalue 0 11).encField = some 0 ∧ (Instr.getvalue 0).encField = some 0 ∧
    (∃ t, exec (.sample 0 0b11) ready = .next t) ∧ (∃ t, exec (.setbounds 0 10 0 true) ready = .next t) ∧
    (∃ t, exec (.setvalue 0 11) ready = .next t) ∧ (∃ t, exec (.getvalue 0) ready = .next t) :=
  ⟨rfl, rfl, rfl, rfl, ⟨_, rfl⟩, ⟨_, rfl⟩, ⟨_, rfl⟩, ⟨_, rfl⟩⟩

end Sys2Proof.Tests
end

