-- ==== Sys2Proof/Proofs/Scope.lean ====
section
/-! PROOFS of the family 00_scope: the block stops at crossed bounds only. Three commands can be refused
(SAMPLE, SETVALUE, POLL); each has one lemma below, and every other event of the port has a next state. -/

namespace Sys2Proof.Machine

variable {s : State} {e : BitVec 8} {why : Refusal}

/-- The refusal names an encoder of `s` whose bounds are crossed: the precondition of Apply fails for it
(R154; log 7). -/
def Refusal.NamesCrossedEncoder (why : Refusal) (s : State) : Prop :=
  ∃ (i : Nat) (r : Encoder), why = .boundsPrecondition i ∧ s.encs[i]? = some r ∧
    r.hi.toInt < r.lo.toInt

/-- A decoder step is refused under crossed bounds only (R128). -/
theorem bounds_crossed_of_encoderStep_eq_none {click : ClickStep} {r : Encoder} {cur : PinState}
    (h : r.step click cur = none) : r.hi.toInt < r.lo.toInt := by
  obtain ⟨_, _, hcrossed⟩ := encoderStep_eq_none_iff.mp h
  exact hcrossed

/-! ### The three commands that can be refused -/

theorem exec_sample_refused {ab : PinState} (h : exec (.sample e ab) s = .refused why) :
    why.NamesCrossedEncoder s := by
  rcases exec_sample_cases h with ⟨_, ho⟩ | ⟨r, hr, hstep, ho⟩ | ⟨_, _, _, _, _, ho⟩
  · cases ho
  · cases ho
    exact ⟨e.toNat, r, rfl, hr, bounds_crossed_of_encoderStep_eq_none hstep⟩
  · cases ho

theorem exec_setvalue_refused {v : Reg} (h : exec (.setvalue e v) s = .refused why) :
    why.NamesCrossedEncoder s := by
  rcases exec_setvalue_cases h with ⟨_, ho⟩ | ⟨r, hr, hnorm, ho⟩ | ⟨_, _, _, _, ho⟩
  · cases ho
  · cases ho
    exact ⟨e.toNat, r, rfl, hr, normalise_eq_none_iff.mp hnorm⟩
  · cases ho

/-- The encoder a refused POLL names is the one at which its loop, counting from 0, stopped (R195). -/
theorem exec_poll_refused (h : exec .poll s = .refused why) : why.NamesCrossedEncoder s := by
  rcases exec_poll_cases h with ⟨i, hloop, ho⟩ | ⟨_, _, ho⟩
  · cases ho
    obtain ⟨k, r, hi, hr, hstep, _⟩ := pollFrom_error hloop
    obtain rfl : i = k := by simpa using hi
    exact ⟨i, r, rfl, hr, bounds_crossed_of_encoderStep_eq_none hstep⟩
  · cases ho

/-! ### Every command and every step -/

theorem exec_refused {i : Instr} (h : exec i s = .refused why) : why.NamesCrossedEncoder s := by
  cases i with
  | nop => cases h
  | begin_ => cases h
  | poll => exact exec_poll_refused h
  | sample e ab => exact exec_sample_refused h
  | setbounds e lo hi wrap => rcases exec_setbounds_cases h with ⟨_, ho⟩ | ⟨_, _, ho⟩ <;> cases ho
  | setvalue e v => exact exec_setvalue_refused h
  | getvalue e => rcases exec_getvalue_cases h with ⟨_, ho⟩ | ⟨_, _, ho⟩ <;> cases ho
  | xy2i x y => rcases exec_xy2i_cases h with ⟨_, _, ho⟩ | ⟨_, ho⟩ <;> cases ho
  | i2xy n => rcases exec_i2xy_cases h with ⟨_, ho⟩ | ⟨_, ho⟩ <;> cases ho
  | griddim => cases h

/-- Accepting a word moves no encoder record. -/
theorem namesCrossedEncoder_accept {pins : List PinState} {rest : List Event} :
    why.NamesCrossedEncoder (accept pins rest s) ↔ why.NamesCrossedEncoder s := by
  simp [Refusal.NamesCrossedEncoder]

theorem step_refused (h : step s = .refused why) : why.NamesCrossedEncoder s := by
  rcases step_cases s with
    ⟨_, ho⟩ | ⟨_, _, ho⟩ | ⟨_, _, _, _, _, _, ho⟩ | ⟨_, _, _, _, _, _, ho⟩ <;> rw [ho] at h
  · cases h
  · cases h
  · cases h
  · exact namesCrossedEncoder_accept.mp (exec_refused h)

/-- Settles O57: only a decoded command can be refused, and its case analysis names the crossed encoder. -/
theorem onlyCrossedBoundsStopTheBlock : Obligations.OnlyCrossedBoundsStopTheBlock := by
  unfold Obligations.OnlyCrossedBoundsStopTheBlock
  intro s why h
  exact step_refused h

end Sys2Proof.Machine
end

/-! PROOFS of the family 10_state: what a completed command leaves of the state, which registers stay in
their bounds, and the values after reset. What a command leaves alone is one frame of `exec`; that a VALUE
lies in its bounds is one fact about Apply; a statement about `step` adds the steps without a command. -/

namespace Sys2Proof.Machine

open Sys2Proof.Claims

variable {s t : State} {i : Instr} {r r' : Encoder}

/-! ### The frame of a completed command -/

/-- What every completed command does beside its effect on the encoder records: CFG_DONE is raised by BEGIN
alone (R27), a response is left (R35), and the build, the number of records, the pins and the events still
to come stay. -/
structure CommandFrame (i : Instr) (s t : State) : Prop where
  cfg : t.cfg = s.cfg
  encs_length : t.encs.length = s.encs.length
  cfgDone : t.cfgDone = (s.cfgDone || decide (i = .begin_))
  answered : ∃ p, t.rsp = some p
  pins : t.pins = s.pins
  port : t.port = s.port

/-- An illegal index leaves the frame of every command but BEGIN, which carries no index. -/
theorem commandFrame_takeIllegal (hi : i ≠ .begin_) : CommandFrame i s (takeIllegal s) := by
  constructor <;> simp [hi]

theorem commandFrame_respond (hi : i ≠ .begin_) {d : BitVec 16} : CommandFrame i s (respond d s) := by
  constructor <;> simp [hi]

theorem commandFrame_respond_useDraw (hi : i ≠ .begin_) {d : BitVec 16} :
    CommandFrame i s (respond d (useDraw s)) := by
  constructor <;> simp [hi]

theorem commandFrame_respond_setEncoder (hi : i ≠ .begin_) {d : BitVec 16} {k : Nat} :
    CommandFrame i s (respond d (setEncoder k r s)) := by
  constructor <;> simp [hi]

theorem exec_poll_frame (h : exec .poll s = .next t) : CommandFrame .poll s t := by
  rcases exec_poll_cases h with ⟨_, _, ho⟩ | ⟨es, hloop, ho⟩ <;> cases ho
  obtain ⟨hlen, _⟩ := pollFrom_ok hloop
  constructor <;> simp [hlen]

theorem exec_frame (h : exec i s = .next t) : CommandFrame i s t := by
  cases i with
  | nop => cases h; exact commandFrame_respond (by simp)
  | begin_ => cases h; constructor <;> simp
  | poll => exact exec_poll_frame h
  | sample e ab =>
    rcases exec_sample_cases h with ⟨_, ho⟩ | ⟨_, _, _, ho⟩ | ⟨_, _, _, _, _, ho⟩ <;> cases ho
    · exact commandFrame_takeIllegal (by simp)
    · exact commandFrame_respond_setEncoder (by simp)
  | setbounds e lo hi wrap =>
    rcases exec_setbounds_cases h with ⟨_, ho⟩ | ⟨_, _, ho⟩ <;> cases ho
    · exact commandFrame_takeIllegal (by simp)
    · exact commandFrame_respond_setEncoder (by simp)
  | setvalue e v =>
    rcases exec_setvalue_cases h with ⟨_, ho⟩ | ⟨_, _, _, ho⟩ | ⟨_, _, _, _, ho⟩ <;> cases ho
    · exact commandFrame_takeIllegal (by simp)
    · exact commandFrame_respond_setEncoder (by simp)
  | getvalue e =>
    rcases exec_getvalue_cases h with ⟨_, ho⟩ | ⟨_, _, ho⟩ <;> cases ho
    · exact commandFrame_takeIllegal (by simp)
    · exact commandFrame_respond (by simp)
  | xy2i x y =>
    rcases exec_xy2i_cases h with ⟨_, _, ho⟩ | ⟨_, ho⟩ <;> cases ho
    · exact commandFrame_respond (by simp)
    · exact commandFrame_respond_useDraw (by simp)
  | i2xy n =>
    rcases exec_i2xy_cases h with ⟨_, ho⟩ | ⟨_, ho⟩ <;> cases ho
    · exact commandFrame_respond (by simp)
    · exact commandFrame_respond_useDraw (by simp)
  | griddim => cases h; exact commandFrame_respond (by simp)

/-! ### The commands that only answer -/

/-- NOP, GETVALUE, XY2I, I2XY and GRIDDIM, in the form of the statement about them (R32, R58). -/
def Instr.OnlyAnswers (i : Instr) : Prop :=
  i = .nop ∨ (∃ e, i = .getvalue e) ∨ (∃ x y, i = .xy2i x y) ∨ (∃ n, i = .i2xy n) ∨ i = .griddim

theorem exec_encs_of_onlyAnswers (hi : Instr.OnlyAnswers i) (h : exec i s = .next t) :
    t.encs = s.encs := by
  rcases hi with rfl | ⟨e, rfl⟩ | ⟨x, y, rfl⟩ | ⟨n, rfl⟩ | rfl
  · cases h; rfl
  · rcases exec_getvalue_cases h with ⟨_, ho⟩ | ⟨_, _, ho⟩ <;> cases ho <;> rfl
  · rcases exec_xy2i_cases h with ⟨_, _, ho⟩ | ⟨_, ho⟩ <;> cases ho <;> rfl
  · rcases exec_i2xy_cases h with ⟨_, ho⟩ | ⟨_, ho⟩ <;> cases ho <;> rfl
  · cases h; rfl

theorem ne_begin_of_onlyAnswers (hi : Instr.OnlyAnswers i) : i ≠ .begin_ := by
  rcases hi with rfl | ⟨e, rfl⟩ | ⟨x, y, rfl⟩ | ⟨n, rfl⟩ | rfl <;> simp

/-! ### VALUE within its bounds -/

/-- Apply answers within its bounds, clipping or wrapping around (R153). -/
theorem applyBounds_mem_bounds {raw lo hi v : Int} {wrap : Bool}
    (h : applyBounds raw lo hi wrap = some v) : lo ≤ v ∧ v ≤ hi := by
  obtain ⟨hle, ⟨_, rfl⟩ | ⟨_, rfl⟩⟩ := applyBounds_cases h
  · unfold clamp
    split_ifs <;> omega
  · have hspan : 0 < hi - lo + 1 := by omega
    have hnonneg := Int.emod_nonneg (raw - lo) hspan.ne'
    have hlt := Int.emod_lt_of_pos (raw - lo) hspan
    unfold fmod
    omega

/-- A number between two registers fits a register (R8, R17). -/
theorem bits16_toInt_of_mem_bounds {lo hi : Reg} {v : Int} (hlo : lo.toInt ≤ v) (hhi : v ≤ hi.toInt) :
    (bits16 v).toInt = v := by
  have hmin : -2 ^ 15 ≤ lo.toInt := BitVec.le_toInt lo
  have hmax : hi.toInt < 2 ^ 15 := BitVec.toInt_lt
  rw [bits16, BitVec.toInt_ofInt]
  exact Int.bmod_eq_of_le (by omega) (by omega)

/-- The write of what Apply answered leaves a record in range, whatever is written to PREV and ACC. -/
theorem inRange_of_applyBounds {raw v : Int} {prev : PinState} {acc : SubStep}
    (h : applyBounds raw r.lo.toInt r.hi.toInt r.wrap = some v) :
    Encoder.InRange { r with prev := prev, acc := acc, value := bits16 v } := by
  obtain ⟨hlo, hhi⟩ := applyBounds_mem_bounds h
  have hv : (bits16 v).toInt = v := bits16_toInt_of_mem_bounds hlo hhi
  exact ⟨hv.symm ▸ hlo, hv.symm ▸ hhi⟩

theorem normalise_inRange {raw : Int} (h : r.normalise raw = some r') : r'.InRange := by
  obtain ⟨v, hv, rfl⟩ := normalise_cases h
  exact inRange_of_applyBounds hv

/-- A decoder step that emits leaves its record in range, wherever VALUE was before (R38). -/
theorem encoderStep_inRange_of_emits {click : ClickStep} {cur : PinState} {d : Int}
    (h : r.step click cur = some (r', d)) (hd : d ≠ 0) : r'.InRange := by
  rcases encoderStep_cases h with ⟨_, _, h0⟩ | ⟨_, _, _, h0⟩ | ⟨_, _, _, v, hv, rfl⟩
  · exact absurd h0 hd
  · exact absurd h0 hd
  · exact inRange_of_applyBounds hv

theorem encoderStep_inRange {click : ClickStep} {cur : PinState} {d : Int}
    (h : r.step click cur = some (r', d)) (hr : r.InRange) : r'.InRange := by
  rcases encoderStep_cases h with ⟨_, rfl, _⟩ | ⟨_, _, rfl, _⟩ | ⟨_, _, _, v, hv, rfl⟩
  · exact hr
  · exact hr
  · exact inRange_of_applyBounds hv

theorem setEncoder_inRange {k : Nat} (hs : s.InRange) (hr : r.InRange) :
    (setEncoder k r s).InRange := by
  intro q hq
  rcases List.mem_or_eq_of_mem_set hq with hq | rfl
  · exact hs q hq
  · exact hr

theorem pollFrom_inRange {click : ClickStep} {pin : Nat → PinState} {k : Nat} {rs es : List Encoder}
    (h : pollFrom click pin k rs = .ok es) (hrs : ∀ q ∈ rs, q.InRange) : ∀ q ∈ es, q.InRange := by
  obtain ⟨hlen, hstep⟩ := pollFrom_ok h
  intro q hq
  obtain ⟨j, hj, rfl⟩ := List.mem_iff_getElem.mp hq
  obtain ⟨q', d, hq', hes⟩ := hstep j rs[j] (List.getElem?_eq_getElem (hlen ▸ hj))
  obtain rfl : es[j] = q' := by simpa [List.getElem?_eq_getElem hj] using hes
  exact encoderStep_inRange hq' (hrs _ (List.getElem_mem _))

theorem exec_inRange_of_onlyAnswers (hs : s.InRange) (hi : Instr.OnlyAnswers i)
    (h : exec i s = .next t) : t.InRange := by
  rw [State.InRange, exec_encs_of_onlyAnswers hi h]
  exact hs

/-- Every command but SETBOUNDS keeps every VALUE in range (R38, R156). -/
theorem exec_inRange (hs : s.InRange) (hi : ∀ e lo hi wrap, i ≠ .setbounds e lo hi wrap)
    (h : exec i s = .next t) : t.InRange := by
  cases i with
  | poll =>
    rcases exec_poll_cases h with ⟨_, _, ho⟩ | ⟨es, hloop, ho⟩ <;> cases ho
    exact pollFrom_inRange hloop hs
  | sample e ab =>
    rcases exec_sample_cases h with ⟨_, ho⟩ | ⟨_, _, _, ho⟩ | ⟨q, q', d, hq, hstep, ho⟩ <;> cases ho
    · exact hs
    · exact setEncoder_inRange hs (encoderStep_inRange hstep (hs q (List.mem_of_getElem? hq)))
  | setbounds e lo hi' wrap => exact absurd rfl (hi e lo hi' wrap)
  | setvalue e v =>
    rcases exec_setvalue_cases h with ⟨_, ho⟩ | ⟨_, _, _, ho⟩ | ⟨q, q', hq, hnorm, ho⟩ <;> cases ho
    · exact hs
    · exact setEncoder_inRange hs (normalise_inRange hnorm)
  | begin_ => cases h; exact hs
  | nop | getvalue | xy2i | i2xy | griddim =>
    exact exec_inRange_of_onlyAnswers hs (by simp [Instr.OnlyAnswers]) h

/-! ### The values after reset -/

@[simp] theorem encoderReset_value_toInt (c : Config) : (Encoder.reset c).value.toInt = 0 := rfl

@[simp] theorem encoderReset_lo_toInt (c : Config) : (Encoder.reset c).lo.toInt = VMIN := by
  change (BitVec.ofInt 16 VMIN).toInt = VMIN
  decide

@[simp] theorem encoderReset_hi_toInt (c : Config) : (Encoder.reset c).hi.toInt = VMAX := by
  change (BitVec.ofInt 16 VMAX).toInt = VMAX
  decide

@[simp] theorem encoderReset_wrap (c : Config) : (Encoder.reset c).wrap = false := rfl

theorem encoderReset_inRange (c : Config) : (Encoder.reset c).InRange := by
  constructor <;> simp [VMIN, VMAX]

theorem resetRecords_inRange (c : Config) :
    ∀ q ∈ List.replicate c.nEnc (Encoder.reset c), q.InRange := by
  intro q hq
  rw [List.eq_of_mem_replicate hq]
  exact encoderReset_inRange c

theorem resetOf_wf {c : Config} (hc : c.Wf) : (State.resetOf c).Wf := ⟨hc, List.length_replicate⟩

theorem resetOf_inRange (c : Config) : (State.resetOf c).InRange := resetRecords_inRange c

theorem reference_wf : Config.reference.Wf := by
  refine ⟨(List.length_replicate).le, fun h => ?_⟩
  exact absurd h (by decide)

/-- With ordered bounds, clamping is what R152 calls clipping. -/
theorem applied_clamp {lo hi : Int} (raw : Int) (hle : lo ≤ hi) :
    Applied raw lo hi false (clamp raw lo hi) := by
  unfold Applied clamp
  split_ifs <;> simp <;> omega

/-- Under the reset bounds Apply saturates (R40). -/
theorem applyBounds_reset (c : Config) (raw : Int) :
    ∃ v, applyBounds raw (Encoder.reset c).lo.toInt (Encoder.reset c).hi.toInt (Encoder.reset c).wrap =
        some v ∧ Applied raw VMIN VMAX false v := by
  have hle : VMIN ≤ VMAX := by decide
  exact ⟨clamp raw VMIN VMAX, by simp [applyBounds_of_le hle], applied_clamp raw hle⟩

/-! ### The pull-up enables -/

theorem puEn_getElem? (s : State) (k : Nat) :
    s.puEn[k]? = s.cfg.wiring[k]?.map (fun wiring => s.cfgDone && wiring.pullUp) := by
  simp [State.puEn]

/-- With CFG_DONE clear no pull-up is enabled (R36). -/
theorem puEn_of_not_cfgDone (h : s.cfgDone = false) : ∀ b ∈ s.puEn, b = false := by
  simp [State.puEn, h]

/-! ### CFG_DONE and the other registers -/

/-- The state with CFG_DONE at `b`. -/
def withCfgDone (b : Bool) (s : State) : State := { s with cfgDone := b }

@[simp] theorem withCfgDone_cfg (b : Bool) (s : State) : (withCfgDone b s).cfg = s.cfg := rfl
@[simp] theorem withCfgDone_encs (b : Bool) (s : State) : (withCfgDone b s).encs = s.encs := rfl
@[simp] theorem withCfgDone_rsp (b : Bool) (s : State) : (withCfgDone b s).rsp = s.rsp := rfl

/-- The outcome with CFG_DONE at `b` in its next state, if it has one. -/
def outcomeWithCfgDone (b : Bool) :
    Host.Outcome State Fault Refusal → Host.Outcome State Fault Refusal
  | .next s => .next (withCfgDone b s)
  | .fault why => .fault why
  | .refused why => .refused why

theorem onEncoder_withCfgDone {b : Bool} {e : BitVec 8}
    {f f' : Encoder → Host.Outcome State Fault Refusal}
    (hf : ∀ q, f' q = outcomeWithCfgDone b (f q)) :
    onEncoder e (withCfgDone b s) f' = outcomeWithCfgDone b (onEncoder e s f) := by
  rcases onEncoder_cases e s f with ⟨hl, ho⟩ | ⟨q, hq, ho⟩
  · rw [ho, onEncoder_of_no_record (s := withCfgDone b s) hl]; rfl
  · rw [ho, onEncoder_of_record (s := withCfgDone b s) hq, hf]

/-- Every command but BEGIN commutes with setting CFG_DONE: it neither reads nor writes it (R27, R176). -/
theorem exec_withCfgDone (b : Bool) (s : State) (hi : i ≠ .begin_) :
    exec i (withCfgDone b s) = outcomeWithCfgDone b (exec i s) := by
  cases i with
  | nop => rfl
  | begin_ => exact absurd rfl hi
  | poll =>
    have hpins : pinRead (withCfgDone b s) = pinRead s := pinRead_congr rfl rfl
    simp only [exec, execPoll, hpins, withCfgDone_cfg, withCfgDone_encs]
    rcases pollFrom s.cfg.clickStep (pinRead s) 0 s.encs with _ | _ <;> rfl
  | sample e ab =>
    refine onEncoder_withCfgDone fun q => ?_
    rw [withCfgDone_cfg]
    rcases q.step s.cfg.clickStep ab with _ | _ <;> rfl
  | setbounds e lo hi wrap => exact onEncoder_withCfgDone fun q => rfl
  | setvalue e v =>
    refine onEncoder_withCfgDone fun q => ?_
    rcases q.normalise (signed16 v) with _ | _ <;> rfl
  | getvalue e => exact onEncoder_withCfgDone fun q => rfl
  | xy2i x y =>
    simp only [exec, execXy2i, apply_ite (outcomeWithCfgDone b)]
    rfl
  | i2xy n =>
    simp only [exec, execI2xy, apply_ite (outcomeWithCfgDone b)]
    rfl
  | griddim => rfl

/-! ### One step -/

/-- A step at which a reset is presented. -/
theorem step_of_reset {rest : List Event} (h : s.port = .reset :: rest) :
    step s = .next (takeReset { s with port := rest }) := by
  rcases step_cases s with ⟨hp, _⟩ | ⟨rest', hp, ho⟩ | ⟨_, _, _, _, hp, _⟩ | ⟨_, _, _, _, hp, _⟩ <;>
    rw [h] at hp <;> cases hp
  exact ho

/-- A step at which a word is presented that decodes to a command. -/
theorem step_of_decode_ok {w : CmdWord} {pins : List PinState} {rest : List Event}
    (h : s.port = .command w pins :: rest) (hd : decode s.encs.length w = .ok i) :
    step s = exec i (accept pins rest s) := by
  rcases step_cases s with ⟨hp, _⟩ | ⟨_, hp, _⟩ | ⟨_, _, _, _, hp, hw, _⟩ | ⟨_, _, _, _, hp, hw, ho⟩ <;>
    rw [h] at hp <;> cases hp
  · rw [hd] at hw; cases hw
  · rw [hd] at hw; cases hw; exact ho

/-- Everything a step that is taken can leave: the idle state, the reset state, the illegal outcome of a word,
or what a decoded command leaves. -/
theorem step_next_cases (h : step s = .next t) :
    (s.port = [] ∧ t = idle s) ∨
    (∃ rest, s.port = .reset :: rest ∧ t = takeReset { s with port := rest }) ∨
    (∃ pins rest, t = takeIllegal (accept pins rest s)) ∨
    (∃ w pins rest i, s.port = .command w pins :: rest ∧ decode s.encs.length w = .ok i ∧
      exec i (accept pins rest s) = .next t) := by
  rcases step_cases s with
    ⟨hp, ho⟩ | ⟨rest, hp, ho⟩ | ⟨_, pins, rest, _, _, _, ho⟩ | ⟨w, pins, rest, i, hp, hd, ho⟩ <;>
    rw [ho] at h
  · cases h; exact .inl ⟨hp, rfl⟩
  · cases h; exact .inr (.inl ⟨rest, hp, rfl⟩)
  · cases h; exact .inr (.inr (.inl ⟨pins, rest, rfl⟩))
  · exact .inr (.inr (.inr ⟨w, pins, rest, i, hp, hd, h⟩))

/-- A step at which a word is presented, and which is taken, leaves a response, legal or not (R35). -/
theorem step_command_answers {w : CmdWord} {pins : List PinState} {rest : List Event}
    (hp : s.port = .command w pins :: rest) (h : step s = .next t) : ∃ p, t.rsp = some p := by
  rcases step_next_cases h with ⟨hidle, _⟩ | ⟨_, hreset, _⟩ | ⟨_, _, rfl⟩ | ⟨_, _, _, _, _, _, ho⟩
  · rw [hp] at hidle; cases hidle
  · rw [hp] at hreset; cases hreset
  · exact ⟨_, takeIllegal_rsp _⟩
  · exact (exec_frame ho).answered

theorem step_cfg (h : step s = .next t) : t.cfg = s.cfg := by
  rcases step_next_cases h with ⟨_, rfl⟩ | ⟨_, _, rfl⟩ | ⟨_, _, rfl⟩ | ⟨_, _, _, _, _, _, ho⟩
  · exact idle_cfg s
  · exact takeReset_cfg _
  · exact takeIllegal_cfg _
  · exact (exec_frame ho).cfg

theorem step_encs_length (hs : s.encs.length = s.cfg.nEnc) (h : step s = .next t) :
    t.encs.length = s.cfg.nEnc := by
  rcases step_next_cases h with ⟨_, rfl⟩ | ⟨_, _, rfl⟩ | ⟨_, _, rfl⟩ | ⟨_, _, _, _, _, _, ho⟩
  · exact hs
  · exact List.length_replicate
  · exact hs
  · exact (exec_frame ho).encs_length.trans hs

/-! ### The statements about every step -/

/-- Settles O53: a reset rebuilds one record per encoder, and every other step keeps their number. -/
theorem everyStepKeepsTheStateWellFormed : Obligations.EveryStepKeepsTheStateWellFormed := by
  unfold Obligations.EveryStepKeepsTheStateWellFormed
  rintro s t ⟨hcfg, hlen⟩ h
  have hc : t.cfg = s.cfg := step_cfg h
  refine ⟨⟨?_, ?_⟩, hc⟩
  · rw [hc]; exact hcfg
  · rw [hc]; exact step_encs_length hlen h

/-- Settles O55: only a decoded command writes a VALUE other than by reset, and Apply answers in range. -/
theorem everyStepButSetboundsKeepsValuesInRange :
    Obligations.EveryStepButSetboundsKeepsValuesInRange := by
  unfold Obligations.EveryStepButSetboundsKeepsValuesInRange
  intro s t hs hport h
  rcases step_next_cases h with ⟨_, rfl⟩ | ⟨_, _, rfl⟩ | ⟨_, _, rfl⟩ | ⟨w, pins, rest, i, hp, hd, ho⟩
  · exact hs
  · exact resetRecords_inRange s.cfg
  · exact hs
  · have hi : ∀ e lo hi wrap, i ≠ .setbounds e lo hi wrap := by
      rintro e lo hi wrap rfl
      exact hport w pins rest e lo hi wrap hp hd
    exact exec_inRange (s := accept pins rest s) hs hi ho

/-- Settles O10, by the frame of the command and the reset of the response port. -/
theorem everyCompletedCommandAnswers : Obligations.EveryCompletedCommandAnswers := by
  unfold Obligations.EveryCompletedCommandAnswers
  constructor
  · intro s t w pins rest hp h
    exact step_command_answers hp h
  · intro s rest hp
    exact ⟨_, step_of_reset hp, rfl⟩

/-- Settles O9, by what a step is when the presented word decodes. -/
theorem stepRunsTheDecodedCommand : Obligations.StepRunsTheDecodedCommand := by
  unfold Obligations.StepRunsTheDecodedCommand
  intro s w pins rest i hp hd
  exact step_of_decode_ok hp hd

/-! ### The statements about commands -/

/-- Settles O16, by the frame of the command. -/
theorem onlyBeginWritesCfgDone : Obligations.OnlyBeginWritesCfgDone := by
  unfold Obligations.OnlyBeginWritesCfgDone
  intro i s t h
  exact (exec_frame h).cfgDone

/-- Settles O17: BEGIN writes CFG_DONE and reads nothing; every other command commutes with setting it. -/
theorem cfgDoneGovernsNoEncoder : Obligations.CfgDoneGovernsNoEncoder := by
  unfold Obligations.CfgDoneGovernsNoEncoder
  intro i s t b h
  by_cases hi : i = .begin_
  · subst hi
    cases h
    exact ⟨_, exec_begin (withCfgDone b s), rfl, rfl⟩
  · refine ⟨withCfgDone b t, ?_, rfl, rfl⟩
    calc exec i (withCfgDone b s) = outcomeWithCfgDone b (exec i s) := exec_withCfgDone b s hi
      _ = .next (withCfgDone b t) := by rw [h]; rfl

/-- Settles O58, by the frame of the command and the records the answering commands leave alone. -/
theorem answeringCommandsChangeNoRegister : Obligations.AnsweringCommandsChangeNoRegister := by
  unfold Obligations.AnsweringCommandsChangeNoRegister
  intro i s t hi h
  have hframe : CommandFrame i s t := exec_frame h
  have hflag : t.cfgDone = s.cfgDone := by
    simpa [ne_begin_of_onlyAnswers hi] using hframe.cfgDone
  exact ⟨exec_encs_of_onlyAnswers hi h, hflag, hframe.cfg, hframe.pins, hframe.port⟩

/-- The record at the index of a taken SETVALUE is the normalised one. -/
theorem exec_setvalue_inRange {e : BitVec 8} {v : Reg} (h : exec (.setvalue e v) s = .next t)
    (hr : t.encs[e.toNat]? = some r) : r.InRange := by
  rcases exec_setvalue_cases h with ⟨hl, ho⟩ | ⟨_, _, _, ho⟩ | ⟨q, q', hq, hnorm, ho⟩ <;> cases ho
  · simp [List.getElem?_eq_none hl] at hr
  · obtain rfl : q' = r := Option.some.inj ((setEncoder_same hq).symm.trans hr)
    exact normalise_inRange hnorm

/-- A SAMPLE that answers a non-zero delta has emitted (R130). -/
theorem exec_sample_inRange_of_delta {e : BitVec 8} {ab : PinState} {d : Reg}
    (h : exec (.sample e ab) s = .next t) (hrsp : t.rsp = ok d) (hd : d ≠ 0#16)
    (hr : t.encs[e.toNat]? = some r) : r.InRange := by
  rcases exec_sample_cases h with ⟨_, ho⟩ | ⟨_, _, _, ho⟩ | ⟨q, q', k, hq, hstep, ho⟩ <;> cases ho
  · simp [ok] at hrsp
  · obtain rfl : q' = r := Option.some.inj ((setEncoder_same hq).symm.trans hr)
    obtain rfl : bits16 k = d := by simpa [ok] using hrsp
    have hk : k ≠ 0 := by rintro rfl; exact hd rfl
    exact encoderStep_inRange_of_emits hstep hk

/-- A POLL leaves every encoder whose step emits in range. -/
theorem exec_poll_inRange_of_delta {k : Nat} {d : Int} (h : exec .poll s = .next t)
    (hr : s.encs[k]? = some r) (hstep : r.step s.cfg.clickStep (pinRead s k) = some (r', d))
    (hd : d ≠ 0) : ∃ q, t.encs[k]? = some q ∧ q.InRange := by
  rcases exec_poll_cases h with ⟨_, _, ho⟩ | ⟨es, hloop, ho⟩ <;> cases ho
  obtain ⟨_, hall⟩ := pollFrom_ok hloop
  obtain ⟨q', d', hq', hes⟩ := hall k r hr
  obtain ⟨rfl, rfl⟩ : r' = q' ∧ d = d' := by simpa [hstep] using hq'
  exact ⟨r', hes, encoderStep_inRange_of_emits hstep hd⟩

/-- A block of one encoder right after reset, VALUE at 0. -/
def oneEncoderReset : State :=
  State.resetOf
    { wiring := [{ pinA := 0, pinB := 1, pullUp := false }], clickStep := .one, prevReset := 0b00#2,
      portWidth := .bits8, m := 0, openTiling := (0, 0) }

/-- SETBOUNDS 0, 1, 2, 0 on a VALUE of 0: the bounds are ordered and VALUE lies outside them. -/
theorem setbounds_can_leave_range : ∃ (s t : State) (e : BitVec 8) (lo hi : Reg) (wrap : Bool),
    s.InRange ∧ exec (.setbounds e lo hi wrap) s = .next t ∧ t.Ordered ∧ ¬ t.InRange :=
  ⟨oneEncoderReset, _, 0, 1, 2, false, resetOf_inRange _, rfl, by decide, by decide⟩

/-- Settles O43: three of its clauses by Apply's range, the fourth by a SETBOUNDS above VALUE. -/
theorem valueLiesInBoundsAfterEveryUpdate : Obligations.ValueLiesInBoundsAfterEveryUpdate := by
  unfold Obligations.ValueLiesInBoundsAfterEveryUpdate
  refine ⟨?_, ?_, ?_, setbounds_can_leave_range⟩
  · intro s t e v r h hr
    exact exec_setvalue_inRange h hr
  · intro s t e ab d r h hrsp hd hr
    exact exec_sample_inRange_of_delta h hrsp hd hr
  · intro s t k r r' d h hr hstep hd
    exact exec_poll_inRange_of_delta h hr hstep hd

/-! ### The statements about the reset state and the pull-up enables -/

/-- Settles O12, by the values of one record after reset and the lemmas above on Apply and PU_EN. -/
theorem resetStateHasTheResetValues : Obligations.ResetStateHasTheResetValues := by
  unfold Obligations.ResetStateHasTheResetValues
  refine ⟨fun c => ⟨rfl, List.length_replicate, fun r hr => ?_, rfl, puEn_of_not_cfgDone rfl, rfl⟩,
    rfl, rfl⟩
  obtain rfl := List.eq_of_mem_replicate hr
  exact ⟨encoderReset_value_toInt c, encoderReset_lo_toInt c, encoderReset_hi_toInt c, encoderReset_wrap c,
    rfl, rfl, applyBounds_reset c⟩

/-- Settles O15, by the entry of `puEn` at an index. -/
theorem pullUpEnableIsCfgDoneAndPullUp : Obligations.PullUpEnableIsCfgDoneAndPullUp := by
  unfold Obligations.PullUpEnableIsCfgDoneAndPullUp
  intro s i k hk
  rw [puEn_getElem?, hk, Option.map_some]

/-- Settles O54, by the reset values in a build and the reference build being admitted. -/
theorem resetStateIsWellFormedAndInRange : Obligations.ResetStateIsWellFormedAndInRange := by
  unfold Obligations.ResetStateIsWellFormedAndInRange
  exact ⟨⟨resetOf_wf reference_wf, resetOf_inRange _⟩, fun c hc => ⟨resetOf_wf hc, resetOf_inRange c⟩⟩

end Sys2Proof.Machine

/-! PROOFS of the family 20_memory: the register file indexed by encoder number and the pin read. A decoder
step is quiet on a zero sub-step and refused only on a crossed emission; a command that carries an encoder
index writes one record at most; a setting command finds, when repeated, what it has written. -/

namespace Sys2Proof.Machine

open Sys2Proof.Claims

variable {s t : State} {e : BitVec 8} {r r' : Encoder} {click : ClickStep} {cur : PinState}

/-! ### The decoder step in the terms of the printed table -/

theorem toInt_qtable_quadKey (p c : PinState) : (qtable (quadKey p c)).toInt = subStep p c := by
  revert p c; decide

theorem subStep_toInt_eq_zero_iff {a : SubStep} : a.toInt = 0 ↔ a = .zero := by
  cases a <;> decide

theorem qtable_eq_zero_iff {p c : PinState} : qtable (quadKey p c) = .zero ↔ subStep p c = 0 := by
  rw [← toInt_qtable_quadKey, subStep_toInt_eq_zero_iff]

/-- ACC alone never reaches the magnitude that emits (R26). -/
theorem subStep_toInt_not_emitting (a : SubStep) : ¬ (a.toInt = 2 ∨ a.toInt = -2) := by
  cases a <;> decide

theorem subStep_self (p : PinState) : subStep p p = 0 := by
  revert p; decide

/-- A null or invalid key leaves the record as it is, whatever the bounds (R124). -/
theorem encoderStep_of_subStep_eq_zero (h : subStep r.prev cur = 0) :
    r.step click cur = some (r, 0) := by
  simp [Encoder.step, qtable_eq_zero_iff.mpr h]

/-- A step is refused when it emits under crossed bounds, and only then (R128, R154). That the key is valid
need not be said: with a sub-step of 0 no sum reaches 2 or -2. -/
theorem encoderStep_refused_iff :
    r.step click cur = none ↔
      (r.acc.toInt + subStep r.prev cur = 2 ∨ r.acc.toInt + subStep r.prev cur = -2) ∧
        r.hi.toInt < r.lo.toInt := by
  rw [encoderStep_eq_none_iff, toInt_qtable_quadKey, Ne, qtable_eq_zero_iff]
  refine and_iff_right_of_imp fun ⟨hemit, _⟩ hzero => ?_
  rw [hzero, add_zero] at hemit
  exact subStep_toInt_not_emitting r.acc hemit

/-! ### POLL without motion -/

/-- A loop in which every record's step leaves the record alone leaves the list alone. -/
theorem pollFrom_eq_self {pin : Nat → PinState} {i : Nat} {rs : List Encoder}
    (h : ∀ k (q : Encoder), rs[k]? = some q → q.step click (pin (i + k)) = some (q, 0)) :
    pollFrom click pin i rs = .ok rs := by
  induction rs generalizing i with
  | nil => rfl
  | cons q rs ih =>
    have hq : q.step click (pin i) = some (q, 0) := h 0 q rfl
    have hrs : pollFrom click pin (i + 1) rs = .ok rs := ih fun k q' hk => by
      rw [Nat.add_right_comm]
      exact h (k + 1) q' hk
    simp [pollFrom, hq, hrs]

/-! ### Commands on one encoder -/

/-- An index that selects no record is illegal, whichever command carries it (R51, R84). -/
theorem exec_of_no_record {i : Instr} (hi : i.encField = some e) (hl : s.encs.length ≤ e.toNat) :
    exec i s = .next (takeIllegal s) := by
  cases i with
  | sample | setbounds | setvalue | getvalue => cases hi; exact onEncoder_of_no_record hl
  | nop | begin_ | poll | xy2i | i2xy | griddim => cases hi

theorem exec_setbounds_of_record {lo hi : Reg} {wrap : Bool} (h : s.encs[e.toNat]? = some r) :
    exec (.setbounds e lo hi wrap) s =
      .next (respondDone (setEncoder e.toNat (r.setBounds lo hi wrap) s)) :=
  onEncoder_of_record h

theorem exec_setvalue_of_normalise {v : Reg} (h : s.encs[e.toNat]? = some r)
    (hnorm : r.normalise v.toInt = some r') :
    exec (.setvalue e v) s = .next (respondDone (setEncoder e.toNat r' s)) := by
  simp [exec, execSetvalue, onEncoder_of_record h, signed16, hnorm, encIndex]

/-- With a record at its index, SAMPLE is refused when the decoder step of that record is. -/
theorem exec_sample_refused_iff {ab : PinState} (hr : s.encs[e.toNat]? = some r) :
    exec (.sample e ab) s = .refused (.boundsPrecondition e.toNat) ↔
      r.step s.cfg.clickStep ab = none := by
  rcases exec_sample_cases (s := s) (e := e) (ab := ab) rfl with
    ⟨hl, _⟩ | ⟨q, hq, hstep, ho⟩ | ⟨q, q', d, hq, hstep, ho⟩
  · simp [List.getElem?_eq_none hl] at hr
  · obtain rfl : r = q := Option.some.inj (hr.symm.trans hq)
    exact iff_of_true ho hstep
  · obtain rfl : r = q := Option.some.inj (hr.symm.trans hq)
    simp [ho, hstep]

/-- What a completed command that carries an encoder index can leave: the illegal outcome, or a response
after one write at that index. GETVALUE is the second with the record it read written back (R51). -/
theorem exec_next_of_encField {i : Instr} (hi : i.encField = some e) (h : exec i s = .next t) :
    t = takeIllegal s ∨ ∃ d q, t = respond d (setEncoder e.toNat q s) := by
  cases i with
  | sample =>
    cases hi
    rcases exec_sample_cases h with ⟨_, ho⟩ | ⟨_, _, _, ho⟩ | ⟨_, _, _, _, _, ho⟩ <;> cases ho
    · exact .inl rfl
    · exact .inr ⟨_, _, rfl⟩
  | setbounds =>
    cases hi
    rcases exec_setbounds_cases h with ⟨_, ho⟩ | ⟨_, _, ho⟩ <;> cases ho
    · exact .inl rfl
    · exact .inr ⟨_, _, rfl⟩
  | setvalue =>
    cases hi
    rcases exec_setvalue_cases h with ⟨_, ho⟩ | ⟨_, _, _, ho⟩ | ⟨_, _, _, _, ho⟩ <;> cases ho
    · exact .inl rfl
    · exact .inr ⟨_, _, rfl⟩
  | getvalue =>
    cases hi
    rcases exec_getvalue_cases h with ⟨_, ho⟩ | ⟨q, hq, ho⟩ <;> cases ho
    · exact .inl rfl
    · exact .inr ⟨q.value, q, by rw [setEncoder_self hq]⟩
  | nop | begin_ | poll | xy2i | i2xy | griddim => cases hi

/-! ### Repeating a setting command -/

/-- Writing a record where it stands already, and answering again, changes nothing. -/
theorem respondDone_setEncoder_repeat (k : Nat) (r : Encoder) (s : State) :
    respondDone (setEncoder k r (respondDone (setEncoder k r s))) =
      respondDone (setEncoder k r s) := by
  simp [respondDone, respond, setEncoder, List.set_set]

theorem setBounds_repeat (r : Encoder) (lo hi : Reg) (wrap : Bool) :
    (r.setBounds lo hi wrap).setBounds lo hi wrap = r.setBounds lo hi wrap := rfl

/-- Normalising a raw value again finds the same bounds and answers the same VALUE (R58, R157). -/
theorem normalise_repeat {raw : Int} (h : r.normalise raw = some r') :
    r'.normalise raw = some r' := by
  obtain ⟨v, hv, rfl⟩ := normalise_cases h
  exact normalise_of_some hv

theorem respondDone_setEncoder_same {k : Nat} (h : s.encs[k]? = some r') :
    (respondDone (setEncoder k r s)).encs[k]? = some r :=
  setEncoder_same h

theorem exec_setbounds_repeat {lo hi : Reg} {wrap : Bool}
    (h : exec (.setbounds e lo hi wrap) s = .next t) :
    exec (.setbounds e lo hi wrap) t = .next t := by
  rcases exec_setbounds_cases h with ⟨hl, ho⟩ | ⟨q, hq, ho⟩ <;> cases ho
  · exact exec_of_no_record (s := takeIllegal s) rfl hl
  · rw [exec_setbounds_of_record (respondDone_setEncoder_same hq), setBounds_repeat,
      respondDone_setEncoder_repeat]

theorem exec_setvalue_repeat {v : Reg} (h : exec (.setvalue e v) s = .next t) :
    exec (.setvalue e v) t = .next t := by
  rcases exec_setvalue_cases h with ⟨hl, ho⟩ | ⟨_, _, _, ho⟩ | ⟨q, q', hq, hnorm, ho⟩ <;> cases ho
  · exact exec_of_no_record (s := takeIllegal s) rfl hl
  · rw [exec_setvalue_of_normalise (respondDone_setEncoder_same hq) (normalise_repeat hnorm),
      respondDone_setEncoder_repeat]

/-! ### The statements -/

/-- Settles O22: with the pins at PREV every key is null, so every record passes the loop as it is. -/
theorem pollWithoutMotionChangesNothing : Obligations.PollWithoutMotionChangesNothing := by
  unfold Obligations.PollWithoutMotionChangesNothing
  intro s hstill
  have hloop : pollFrom s.cfg.clickStep (pinRead s) 0 s.encs = .ok s.encs := by
    refine pollFrom_eq_self fun k q hk => encoderStep_of_subStep_eq_zero ?_
    rw [Nat.zero_add, hstill k q hk, subStep_self]
  rcases exec_poll_cases (s := s) rfl with ⟨_, hrefused, _⟩ | ⟨es, hes, ho⟩
  · cases hloop.symm.trans hrefused
  · cases hloop.symm.trans hes
    exact ho

/-- Settles O30, by the condition under which the decoder step is refused. -/
theorem sampleStopsOnlyOnACrossedEmission : Obligations.SampleStopsOnlyOnACrossedEmission := by
  unfold Obligations.SampleStopsOnlyOnACrossedEmission
  constructor
  · intro s e ab r hr
    rw [exec_sample_refused_iff hr, encoderStep_refused_iff]
  · intro s e ab hl
    exact exec_of_no_record rfl hl

/-- Settles O59: BEGIN by computation, the other two by finding their own write. -/
theorem settingCommandsAreIdempotent : Obligations.SettingCommandsAreIdempotent := by
  unfold Obligations.SettingCommandsAreIdempotent
  rintro i s t (rfl | ⟨e, lo, hi, wrap, rfl⟩ | ⟨e, v, rfl⟩) h
  · cases h; rfl
  · exact exec_setbounds_repeat h
  · exact exec_setvalue_repeat h

/-- Settles O60: the illegal outcome writes no record, and any other outcome writes one. -/
theorem encoderCommandTouchesItsEncoderOnly : Obligations.EncoderCommandTouchesItsEncoderOnly := by
  unfold Obligations.EncoderCommandTouchesItsEncoderOnly
  intro i s t e hi h
  rcases exec_next_of_encField hi h with rfl | ⟨d, q, rfl⟩
  · exact ⟨fun _ _ => rfl, rfl, rfl, rfl, rfl, rfl, rfl⟩
  · exact ⟨fun _ hj => setEncoder_other hj, setEncoder_length _ _ _, rfl, rfl, rfl, rfl, rfl⟩

/-- Settles O18, by what PinRead answers for a level the list gives. -/
theorem pinReadAnswersThePresentedLevel : Obligations.PinReadAnswersThePresentedLevel := by
  unfold Obligations.PinReadAnswersThePresentedLevel
  intro s i p h
  exact pinRead_of_given h

end Sys2Proof.Machine

/-! PROOFS of the family 30_encoding: decoding and encoding agree, and what makes a word illegal. A word is
its six fields (R71); the opcode alone names its row of the opcode map (R81); a decoded word is one that
matches its row and names an encoder of the build. The statements about words rest on these three facts. -/

namespace Sys2Proof.Machine

open Sys2Proof.Claims Sys2Proof.Laws

variable {s : State} {w : CmdWord} {r r' : Row} {n : Nat} {i : Instr} {pins : List PinState}
  {rest : List Event}

/-! ### The fields of a word -/

/-- `rsv`, bits 35:33 (R71). -/
def rsvField (w : CmdWord) : BitVec 3 := w.extractLsb' 33 3

theorem ofBool_wrapField (w : CmdWord) : BitVec.ofBool (wrapField w) = w.extractLsb' 32 1 := by
  ext k hk
  obtain rfl : k = 0 := by omega
  simp [wrapField]

/-- The six fields of R71 cover a word. -/
theorem fields_append (w : CmdWord) :
    opField w ++ encField w ++ rsvField w ++ BitVec.ofBool (wrapField w) ++ hiField w ++ loField w = w := by
  rw [ofBool_wrapField]
  simp (disch := rfl) only [opField, encField, rsvField, hiField, loField,
    BitVec.extractLsb'_append_extractLsb'_eq_extractLsb']
  exact BitVec.extractLsb'_eq_self

/-- A word with these fields, and with its reserved bits zero, is the packed word of them. -/
theorem packWord_eq_of_fields {op : BitVec 4} {enc : BitVec 8} {wrap : Bool} {hi lo : Reg}
    (hop : opField w = op) (henc : encField w = enc) (hrsv : rsvField w = 0#3)
    (hwrap : wrapField w = wrap) (hhi : hiField w = hi) (hlo : loField w = lo) :
    packWord op enc wrap hi lo = w := by
  calc packWord op enc wrap hi lo
      = opField w ++ encField w ++ rsvField w ++ BitVec.ofBool (wrapField w) ++ hiField w ++ loField w := by
        rw [hop, henc, hrsv, hwrap, hhi, hlo, packWord]
    _ = w := fields_append w

/-! The operands that are parts of `lo` (R79). -/

theorem abField_eq (w : CmdWord) : abField w = (loField w).extractLsb' 0 2 := by
  ext k hk
  simp [abField, loField]

theorem xField_eq (w : CmdWord) : xField w = (loField w).extractLsb' 0 8 := by
  ext k hk
  simp [xField, loField]

theorem yField_eq (w : CmdWord) : yField w = (loField w).extractLsb' 8 8 := by
  ext k hk
  simp [yField, loField]

theorem append_abField (w : CmdWord) : w.extractLsb' 2 14 ++ abField w = loField w :=
  BitVec.extractLsb'_append_extractLsb'_eq_extractLsb' rfl

theorem yField_append_xField (w : CmdWord) : yField w ++ xField w = loField w :=
  BitVec.extractLsb'_append_extractLsb'_eq_extractLsb' rfl

section PackWord

variable {op : BitVec 4} {enc : BitVec 8} {wrap : Bool} {hi lo : Reg}

@[simp] theorem opField_packWord : opField (packWord op enc wrap hi lo) = op := by
  change (op ++ enc ++ 0#3 ++ BitVec.ofBool wrap ++ hi ++ lo).extractLsb' 44 4 = op
  simp (disch := omega) only [BitVec.extractLsb'_append_eq_of_le]
  exact BitVec.extractLsb'_eq_self

@[simp] theorem encField_packWord : encField (packWord op enc wrap hi lo) = enc := by
  change (op ++ enc ++ 0#3 ++ BitVec.ofBool wrap ++ hi ++ lo).extractLsb' 36 8 = enc
  simp (disch := omega) only [BitVec.extractLsb'_append_eq_of_le, BitVec.extractLsb'_append_eq_of_add_le]
  exact BitVec.extractLsb'_eq_self

@[simp] theorem wrapField_packWord : wrapField (packWord op enc wrap hi lo) = wrap := by
  change (op ++ enc ++ 0#3 ++ BitVec.ofBool wrap ++ hi ++ lo).getLsbD 32 = wrap
  simp only [BitVec.getLsbD_append]
  simp

@[simp] theorem hiField_packWord : hiField (packWord op enc wrap hi lo) = hi := by
  change (op ++ enc ++ 0#3 ++ BitVec.ofBool wrap ++ hi ++ lo).extractLsb' 16 16 = hi
  simp (disch := omega) only [BitVec.extractLsb'_append_eq_of_le, BitVec.extractLsb'_append_eq_of_add_le]
  exact BitVec.extractLsb'_eq_self

@[simp] theorem loField_packWord : loField (packWord op enc wrap hi lo) = lo := by
  change (op ++ enc ++ 0#3 ++ BitVec.ofBool wrap ++ hi ++ lo).extractLsb' 0 16 = lo
  simp (disch := omega) only [BitVec.extractLsb'_append_eq_of_add_le]
  exact BitVec.extractLsb'_eq_self

@[simp] theorem abField_packWord {z : BitVec 14} {ab : PinState} :
    abField (packWord op enc wrap hi (z ++ ab)) = ab := by
  rw [abField_eq, loField_packWord]
  exact (BitVec.extractLsb'_append_eq_of_add_le le_rfl).trans BitVec.extractLsb'_eq_self

@[simp] theorem xField_packWord {y x : BitVec 8} : xField (packWord op enc wrap hi (y ++ x)) = x := by
  rw [xField_eq, loField_packWord]
  exact (BitVec.extractLsb'_append_eq_of_add_le le_rfl).trans BitVec.extractLsb'_eq_self

@[simp] theorem yField_packWord {y x : BitVec 8} : yField (packWord op enc wrap hi (y ++ x)) = y := by
  rw [yField_eq, loField_packWord]
  exact (BitVec.extractLsb'_append_eq_of_le le_rfl).trans BitVec.extractLsb'_eq_self

end PackWord

/-! ### The rows of the opcode map (R81) -/

theorem opField_mask : ∀ r ∈ opcodeMap, opField r.mask = 0xF#4 := by decide

theorem row_matches_iff : r.matches w = true ↔ w &&& r.mask = r.pattern := beq_iff_eq

/-- Where a row's mask is all ones, a word that matches the row has the bits of its pattern. -/
theorem extract_of_matches (h : r.matches w = true) {start len : Nat}
    (hmask : r.mask.extractLsb' start len = BitVec.allOnes len) :
    w.extractLsb' start len = r.pattern.extractLsb' start len := by
  rw [← row_matches_iff.mp h, BitVec.extractLsb'_and, hmask, BitVec.and_allOnes]

/-- A row sees the whole opcode of a word, because its mask contains bits 47:44. -/
theorem opField_of_matches (hr : r ∈ opcodeMap) (h : r.matches w = true) :
    opField w = opField r.pattern :=
  extract_of_matches h (opField_mask r hr)

/-- Every format has `rsv` zero (R71). -/
theorem rsvField_mask_and_pattern :
    ∀ r ∈ opcodeMap, rsvField r.mask = BitVec.allOnes 3 ∧ rsvField r.pattern = 0#3 := by decide

theorem rsvField_of_matches (hr : r ∈ opcodeMap) (h : r.matches w = true) : rsvField w = 0#3 := by
  obtain ⟨hmask, hpattern⟩ := rsvField_mask_and_pattern r hr
  exact (extract_of_matches h hmask).trans hpattern

/-- The opcodes of the map are assigned ones (R82). -/
theorem opField_pattern_not_reserved :
    ∀ r ∈ opcodeMap, ¬ (opField r.pattern = 0x7#4 ∨ 0xB ≤ (opField r.pattern).toNat) := by decide

/-- A row's pattern has no bit below the opcode (R81). -/
theorem pattern_and_operandBits : ∀ r ∈ opcodeMap, r.pattern &&& 0x0FFFFFFFFFFF#48 = 0#48 := by decide

/-- The formats of SAMPLE, SETBOUNDS, SETVALUE and GETVALUE have an `enc` field (R84). -/
theorem hasEnc_of_opField :
    ∀ r ∈ opcodeMap, opField r.pattern ∈ [0x3#4, 0x4#4, 0x5#4, 0x6#4] → r.hasEnc = true := by decide

/-- The printed opcodes and masks are those of the map, row by row (R81). -/
theorem map_opcodeMap_eq_formatsAsPrinted :
    opcodeMap.map (fun r => (opField r.pattern, r.mask)) = formatsAsPrinted := rfl

/-- The opcode names the row. -/
theorem row_eq_of_opField (hr : r ∈ opcodeMap) (hr' : r' ∈ opcodeMap)
    (h : opField r.pattern = opField r'.pattern) : r = r' := by
  have hnodup : (opcodeMap.map fun r => opField r.pattern).Nodup := by decide
  exact List.inj_on_of_nodup_map hnodup hr hr' h

theorem row_eq_of_mnemonic (hr : r ∈ opcodeMap) (hr' : r' ∈ opcodeMap)
    (h : r.mnemonic = r'.mnemonic) : r = r' := by
  have hnodup : (opcodeMap.map fun r => r.mnemonic).Nodup := by decide
  exact List.inj_on_of_nodup_map hnodup hr hr' h

theorem row_eq_of_matches (hr : r ∈ opcodeMap) (hr' : r' ∈ opcodeMap) (h : r.matches w = true)
    (h' : r'.matches w = true) : r = r' :=
  row_eq_of_opField hr hr' ((opField_of_matches hr h).symm.trans (opField_of_matches hr' h'))

/-- The row found for a word is the one it matches. -/
theorem find?_opcodeMap_eq_some_iff :
    opcodeMap.find? (fun r => r.matches w) = some r ↔ r ∈ opcodeMap ∧ r.matches w = true := by
  constructor
  · intro h
    exact ⟨List.mem_of_find?_eq_some h, List.find?_some (p := fun r : Row => r.matches w) h⟩
  · rintro ⟨hr, h⟩
    obtain ⟨r', hfind⟩ : ∃ r', opcodeMap.find? (fun r => r.matches w) = some r' :=
      Option.isSome_iff_exists.mp (List.find?_isSome.mpr ⟨r, hr, h⟩)
    rw [hfind, row_eq_of_matches hr (List.mem_of_find?_eq_some hfind) h
      (List.find?_some (p := fun r : Row => r.matches w) hfind)]

/-! ### What a word decodes to -/

/-- A word decodes to a command when it matches a row, its encoder index, if the row has one, names an encoder
of the build, and the command is the row's (R86). -/
theorem decode_eq_ok_iff :
    decode n w = .ok i ↔ ∃ r ∈ opcodeMap, r.matches w = true ∧
      (r.hasEnc = true → (encField w).toNat < n) ∧ r.build w = i := by
  constructor
  · intro h
    unfold decode at h
    split at h
    · rename_i r hfind
      obtain ⟨hr, hmatch⟩ := find?_opcodeMap_eq_some_iff.mp hfind
      split at h
      · cases h
      · rename_i henc
        exact ⟨r, hr, hmatch, by simpa using henc, by simpa using h⟩
    · split at h <;> cases h
  · rintro ⟨r, hr, hmatch, henc, rfl⟩
    simpa [decode, find?_opcodeMap_eq_some_iff.mpr ⟨hr, hmatch⟩] using henc

/-- A word that decodes to no command is illegal: decoding is total. -/
theorem decode_error_of_not_ok (h : ∀ i, decode n w ≠ .ok i) : ∃ why, decode n w = .error why := by
  rcases hd : decode n w with why | i
  · exact ⟨why, rfl⟩
  · exact absurd hd (h i)

/-! ### Illegal words (R82, R83, R84) -/

/-- An opcode outside the map is illegal, whatever the other bits. -/
theorem decode_error_of_reserved (hop : opField w = 0x7#4 ∨ 0xB ≤ (opField w).toNat) :
    ∃ why, decode n w = .error why := by
  refine decode_error_of_not_ok fun i hok => ?_
  obtain ⟨r, hr, hmatch, _, _⟩ := decode_eq_ok_iff.mp hok
  rw [opField_of_matches hr hmatch] at hop
  exact opField_pattern_not_reserved r hr hop

/-- A word with the opcode of a format and a bit set that the format's mask requires to be zero is illegal:
no other row has that opcode, and the pattern of this one has no such bit. -/
theorem decode_error_of_mustBeZero {f : BitVec 4 × CmdWord} (hf : f ∈ formatsAsPrinted)
    (hop : opField w = f.1) (hbit : w &&& (f.2 &&& 0x0FFFFFFFFFFF#48) ≠ 0#48) :
    ∃ why, decode n w = .error why := by
  refine decode_error_of_not_ok fun i hok => hbit ?_
  obtain ⟨r, hr, hmatch, _, _⟩ := decode_eq_ok_iff.mp hok
  obtain ⟨r', hr', rfl⟩ := List.mem_map.mp (map_opcodeMap_eq_formatsAsPrinted ▸ hf)
  obtain rfl : r = r' := row_eq_of_opField hr hr' ((opField_of_matches hr hmatch).symm.trans hop)
  calc w &&& (r.mask &&& 0x0FFFFFFFFFFF#48) = (w &&& r.mask) &&& 0x0FFFFFFFFFFF#48 :=
        (BitVec.and_assoc ..).symm
    _ = r.pattern &&& 0x0FFFFFFFFFFF#48 := by rw [row_matches_iff.mp hmatch]
    _ = 0#48 := pattern_and_operandBits r hr

theorem decode_error_of_encoderOutOfRange (hop : opField w ∈ [0x3#4, 0x4#4, 0x5#4, 0x6#4])
    (henc : n ≤ (encField w).toNat) : ∃ why, decode n w = .error why := by
  refine decode_error_of_not_ok fun i hok => ?_
  obtain ⟨r, hr, hmatch, hlt, _⟩ := decode_eq_ok_iff.mp hok
  rw [opField_of_matches hr hmatch] at hop
  exact absurd (hlt (hasEnc_of_opField r hr hop)) (not_lt.mpr henc)

/-- The effect of an illegal word on a step (R82, R191). -/
theorem step_of_decode_error (hp : s.port = .command w pins :: rest)
    (hd : ∃ why, decode s.encs.length w = .error why) :
    step s = .next { s with pins := pins, port := rest, rsp := illegal } := by
  obtain ⟨why, hwhy⟩ := hd
  rcases step_cases s with
    ⟨hp', _⟩ | ⟨_, hp', _⟩ | ⟨_, _, _, _, hp', _, ho⟩ | ⟨_, _, _, _, hp', hok, _⟩ <;>
    rw [hp] at hp' <;> cases hp'
  · exact ho
  · rw [hwhy] at hok; cases hok

/-! ### The word of the command a word decodes to -/

theorem wrapField_of_matches (h : r.matches w = true) (hmask : wrapField r.mask = true) :
    wrapField w = wrapField r.pattern := by
  rw [← row_matches_iff.mp h]
  simp only [wrapField] at hmask ⊢
  rw [BitVec.getLsbD_and, hmask, Bool.and_true]

/-- A row without operand bits has one word. -/
theorem eq_pattern_of_matches (h : r.matches w = true) (hmask : r.mask = BitVec.allOnes 48) :
    r.pattern = w := by
  rw [← row_matches_iff.mp h, hmask, BitVec.and_allOnes]

/-- No bit of a word that matches a row is lost in the row's command: the mask fixes every field, or part of a
field, that is no operand (R72 to R78, R81). The cases are the rows in the order of the map. -/
theorem encode_build_of_matches (hr : r ∈ opcodeMap) (h : r.matches w = true) :
    encode (r.build w) = w := by
  have hop := opField_of_matches hr h
  have hrsv := rsvField_of_matches hr h
  simp only [opcodeMap, List.mem_cons, List.not_mem_nil, or_false] at hr
  rcases hr with rfl | rfl | rfl | rfl | rfl | rfl | rfl | rfl | rfl | rfl
  · exact eq_pattern_of_matches h rfl
  · exact eq_pattern_of_matches h rfl
  · exact eq_pattern_of_matches h rfl
  · have hlo : loField w = 0#14 ++ abField w := by
      calc loField w = w.extractLsb' 2 14 ++ abField w := (append_abField w).symm
        _ = 0#14 ++ abField w := by rw [extract_of_matches h (start := 2) (len := 14) rfl]; rfl
    exact packWord_eq_of_fields hop rfl hrsv (wrapField_of_matches h rfl) (extract_of_matches h rfl) hlo
  · exact packWord_eq_of_fields hop rfl hrsv rfl rfl rfl
  · exact packWord_eq_of_fields hop rfl hrsv (wrapField_of_matches h rfl) (extract_of_matches h rfl) rfl
  · exact packWord_eq_of_fields hop rfl hrsv (wrapField_of_matches h rfl)
      (extract_of_matches h rfl) (extract_of_matches h rfl)
  · exact packWord_eq_of_fields hop (extract_of_matches h rfl) hrsv
      (wrapField_of_matches h rfl) (extract_of_matches h rfl) (yField_append_xField w).symm
  · have hlo : loField w = 0#8 ++ xField w := by
      calc loField w = yField w ++ xField w := (yField_append_xField w).symm
        _ = 0#8 ++ xField w := by rw [yField, extract_of_matches h (start := 8) (len := 8) rfl]; rfl
    exact packWord_eq_of_fields hop (extract_of_matches h rfl) hrsv
      (wrapField_of_matches h rfl) (extract_of_matches h rfl) hlo
  · exact eq_pattern_of_matches h rfl

/-- The command of a row is well-formed when the encoder index, if the row has one, is in range (R84). -/
theorem wellFormed_build_iff (hr : r ∈ opcodeMap) :
    (r.build w).wellFormed n = true ↔ (r.hasEnc = true → (encField w).toNat < n) := by
  simp only [opcodeMap, List.mem_cons, List.not_mem_nil, or_false] at hr
  rcases hr with rfl | rfl | rfl | rfl | rfl | rfl | rfl | rfl | rfl | rfl <;> simp [Instr.wellFormed]

/-! ### The command the word of a command decodes to -/

/-- A word of a row decodes to the row's command when that is well-formed. -/
theorem decode_of_matches (hr : r ∈ opcodeMap) (h : r.matches w = true)
    (hwf : (r.build w).wellFormed n = true) : decode n w = .ok (r.build w) :=
  decode_eq_ok_iff.mpr ⟨r, hr, h, (wellFormed_build_iff hr).mp hwf, rfl⟩

/-- The row at `k` is that of the command `i`: its mnemonic is the one EncodeMatchesItsRow gives for `i`, and
it reads the operands back from the word of `i`. -/
theorem decode_encode_of_row {k : Nat} {row : Row} (hk : opcodeMap[k]? = some row)
    (hmatch : ∃ r ∈ opcodeMap, r.mnemonic = row.mnemonic ∧ r.matches (encode i) = true)
    (hbuild : row.build (encode i) = i) (hwf : i.wellFormed n = true) : decode n (encode i) = .ok i := by
  have hrow : row ∈ opcodeMap := List.mem_of_getElem? hk
  obtain ⟨r, hr, hname, hm⟩ := hmatch
  obtain rfl : r = row := row_eq_of_mnemonic hr hrow hname
  calc decode n (encode i) = .ok (r.build (encode i)) := decode_of_matches hr hm (hbuild.symm ▸ hwf)
    _ = .ok i := by rw [hbuild]

theorem decode_encode (hwf : i.wellFormed n = true) : decode n (encode i) = .ok i := by
  cases i with
  | nop => exact decode_encode_of_row (k := 0) rfl EncodeMatchesItsRow.nop rfl hwf
  | begin_ => exact decode_encode_of_row (k := 1) rfl EncodeMatchesItsRow.begin_ rfl hwf
  | poll => exact decode_encode_of_row (k := 2) rfl EncodeMatchesItsRow.poll rfl hwf
  | sample enc ab =>
    exact decode_encode_of_row (k := 3) rfl (EncodeMatchesItsRow.sample enc ab)
      (by simp [encode]) hwf
  | setbounds enc lo hi wrap =>
    exact decode_encode_of_row (k := 4) rfl (EncodeMatchesItsRow.setbounds enc lo hi wrap)
      (by simp [encode]) hwf
  | setvalue enc v =>
    exact decode_encode_of_row (k := 5) rfl (EncodeMatchesItsRow.setvalue enc v)
      (by simp [encode]) hwf
  | getvalue enc =>
    exact decode_encode_of_row (k := 6) rfl (EncodeMatchesItsRow.getvalue enc)
      (by simp [encode]) hwf
  | xy2i x y =>
    exact decode_encode_of_row (k := 7) rfl (EncodeMatchesItsRow.xy2i x y)
      (by simp [encode]) hwf
  | i2xy index =>
    exact decode_encode_of_row (k := 8) rfl (EncodeMatchesItsRow.i2xy index)
      (by simp [encode]) hwf
  | griddim => exact decode_encode_of_row (k := 9) rfl EncodeMatchesItsRow.griddim rfl hwf

/-! ### The statements about words -/

/-- Settles O1, by the row of each command and the operands it reads back. -/
theorem decodeOfEncodeIsTheCommand : Obligations.DecodeOfEncodeIsTheCommand := by
  unfold Obligations.DecodeOfEncodeIsTheCommand
  intro n i hwf
  exact decode_encode hwf

/-- Settles O2: a decoded word matches a row, whose mask leaves no bit but the operands free. -/
theorem legalWordIsEncodingOfItsCommand : Obligations.LegalWordIsEncodingOfItsCommand := by
  unfold Obligations.LegalWordIsEncodingOfItsCommand
  intro n w i h
  obtain ⟨r, hr, hmatch, henc, rfl⟩ := decode_eq_ok_iff.mp h
  exact ⟨encode_build_of_matches hr hmatch, (wellFormed_build_iff hr).mpr henc⟩

/-- Settles O3: a word gives its opcode to every row it matches, and the opcode names the row. -/
theorem opcodeRowsAreDisjoint : Obligations.OpcodeRowsAreDisjoint := by
  unfold Obligations.OpcodeRowsAreDisjoint
  refine ⟨map_opcodeMap_eq_formatsAsPrinted, opField_mask, ?_⟩
  intro w r hr r' hr' h h'
  rw [row_eq_of_matches hr hr' h h']

/-- Settles O4: a reserved opcode is the opcode of no row. -/
theorem reservedOpcodeIsIllegal : Obligations.ReservedOpcodeIsIllegal := by
  unfold Obligations.ReservedOpcodeIsIllegal
  intro w s pins rest hop hp
  have hd : ∃ why, decode s.encs.length w = .error why := decode_error_of_reserved hop
  exact ⟨hd, step_of_decode_error hp hd⟩

/-- Settles O5; the two words are of the formats of GETVALUE and POLL. -/
theorem nonzeroMustBeZeroBitIsIllegal : Obligations.NonzeroMustBeZeroBitIsIllegal := by
  unfold Obligations.NonzeroMustBeZeroBitIsIllegal
  refine ⟨?_, fun n => ?_, fun n => ?_⟩
  · intro f hf w s pins rest hop hbit hp
    have hd : ∃ why, decode s.encs.length w = .error why := decode_error_of_mustBeZero hf hop hbit
    exact ⟨hd, step_of_decode_error hp hd⟩
  · exact decode_error_of_mustBeZero (f := (0x6#4, 0xF00FFFFFFFFF#48)) (by decide) (by decide) (by decide)
  · exact decode_error_of_mustBeZero (f := (0x2#4, 0xFFFFFFFFFFFF#48)) (by decide) (by decide) (by decide)

/-- POLL of a block without encoders steps nothing and uses one draw (R84, R175). -/
theorem exec_poll_of_no_encoder (h : s.encs = []) : exec .poll s = .next (respondDone (useDraw s)) := by
  have hloop : pollFrom s.cfg.clickStep (pinRead s) 0 s.encs = .ok s.encs := by rw [h]; rfl
  simp [exec, execPoll, hloop]

/-- Settles O6: its first clause by the rows with an `enc` field, its second by running the two commands, whose
words decode in a build of any size. -/
theorem encoderIndexOutOfRangeIsIllegal : Obligations.EncoderIndexOutOfRangeIsIllegal := by
  unfold Obligations.EncoderIndexOutOfRangeIsIllegal
  refine ⟨?_, fun s pins rest hempty => ⟨fun hp => ?_, fun hp => ?_⟩⟩
  · intro w s pins rest hop henc hp
    have hd : ∃ why, decode s.encs.length w = .error why := decode_error_of_encoderOutOfRange hop henc
    exact ⟨hd, step_of_decode_error hp hd⟩
  · have hd : decode s.encs.length 0x100000000000#48 = .ok .begin_ := decode_encode (i := .begin_) rfl
    exact step_of_decode_ok hp hd
  · have hd : decode s.encs.length 0x200000000000#48 = .ok .poll := decode_encode (i := .poll) rfl
    exact ⟨s.draws + 1, (step_of_decode_ok hp hd).trans (exec_poll_of_no_encoder hempty)⟩

/-! ### Bounds first, then value (R88, R159) -/

/-- What Apply answers is what R152 says it is. -/
theorem applied_of_applyBounds {raw lo hi v : Int} {wrap : Bool}
    (h : applyBounds raw lo hi wrap = some v) : Applied raw lo hi wrap v := by
  obtain ⟨hlo, hhi⟩ := applyBounds_mem_bounds h
  obtain ⟨hle, ⟨rfl, rfl⟩ | ⟨rfl, rfl⟩⟩ := applyBounds_cases h
  · exact applied_clamp raw hle
  · have hdvd : (hi - lo + 1) ∣ lo + fmod (raw - lo) (hi - lo + 1) - raw := by
      have hself : (hi - lo + 1) ∣ (raw - lo) - (raw - lo) % (hi - lo + 1) := Int.dvd_self_sub_emod
      have hneg : lo + fmod (raw - lo) (hi - lo + 1) - raw =
          -((raw - lo) - (raw - lo) % (hi - lo + 1)) := by unfold fmod; omega
      rw [hneg]
      exact hself.neg_right
    exact ⟨hlo, hhi, by simp, fun _ => hdvd⟩

/-- With ordered bounds a record is normalised, to the VALUE that R152 says. -/
theorem normalise_applied {q : Encoder} (hle : q.Ordered) (raw : Int) :
    ∃ v : Reg, q.normalise raw = some { q with value := v } ∧
      Applied raw q.lo.toInt q.hi.toInt q.wrap v.toInt := by
  obtain ⟨v, hv⟩ : ∃ v, applyBounds raw q.lo.toInt q.hi.toInt q.wrap = some v :=
    ⟨_, applyBounds_of_le hle⟩
  obtain ⟨hlo, hhi⟩ := applyBounds_mem_bounds hv
  refine ⟨bits16 v, normalise_of_some hv, ?_⟩
  rw [bits16_toInt_of_mem_bounds hlo hhi]
  exact applied_of_applyBounds hv

/-- SETBOUNDS, then SETVALUE: both complete, and VALUE is normalised in the new bounds. -/
theorem exec_setbounds_setvalue {e : BitVec 8} {lo hi : Reg} {wrap : Bool} {v : Reg}
    (he : e.toNat < s.encs.length) (hle : lo.toInt ≤ hi.toInt) :
    ∃ (s1 s2 : State) (q : Encoder),
      exec (.setbounds e lo hi wrap) s = .next s1 ∧ exec (.setvalue e v) s1 = .next s2 ∧
      s2.encs[e.toNat]? = some q ∧ q.lo = lo ∧ q.hi = hi ∧ q.wrap = wrap ∧
      Applied v.toInt lo.toInt hi.toInt wrap q.value.toInt := by
  have hr : s.encs[e.toNat]? = some s.encs[e.toNat] := List.getElem?_eq_getElem he
  have hbounded := respondDone_setEncoder_same (r := s.encs[e.toNat].setBounds lo hi wrap) hr
  obtain ⟨value, hnorm, happlied⟩ :=
    normalise_applied (q := s.encs[e.toNat].setBounds lo hi wrap) hle v.toInt
  exact ⟨_, _, _, exec_setbounds_of_record hr, exec_setvalue_of_normalise hbounded hnorm,
    respondDone_setEncoder_same hbounded, rfl, rfl, rfl, happlied⟩

/-- SETVALUE 0, 7, then SETBOUNDS 0, 1, 2, 0: VALUE stays at 7, above the new bounds. -/
theorem setvalue_setbounds_can_leave_range :
    ∃ (s s1 s2 : State) (e : BitVec 8) (lo hi : Reg) (wrap : Bool) (v : Reg) (q : Encoder),
      exec (.setvalue e v) s = .next s1 ∧ exec (.setbounds e lo hi wrap) s1 = .next s2 ∧
      s2.encs[e.toNat]? = some q ∧ q.Ordered ∧ ¬ q.InRange :=
  ⟨oneEncoderReset, _, _, 0, 1, 2, false, 7, _, rfl, rfl, rfl, by decide, by decide⟩

/-- Settles O44: SETBOUNDS makes the bounds ordered, so the SETVALUE after it is not refused. -/
theorem boundsThenValueLeavesValueInBounds : Obligations.BoundsThenValueLeavesValueInBounds := by
  unfold Obligations.BoundsThenValueLeavesValueInBounds
  refine ⟨fun e lo hi wrap v => rfl, ?_, setvalue_setbounds_can_leave_range⟩
  intro s e lo hi wrap v he hle
  exact exec_setbounds_setvalue he hle

end Sys2Proof.Machine

/-! PROOFS of the family 40_grid_mapper: the numbering of the cells and what XY2I, I2XY and GRIDDIM answer. The
numbering is mixed-radix, (by, bx, iy, ix) in the radices BH, BW, 4, 4; that I2XY reads the digits back is a
fact about natural numbers. An admitted build is small enough for bytes to hold indices and coordinates, so the
commands answer these numbers uncut. -/

namespace Sys2Proof.Machine

open Sys2Proof.Claims

variable {c : Config} {s : State} {x y n : BitVec 8}

/-! ### The tiling (R101, R102, R105) -/

theorem tiling_eq_openTiling (h : 3 ≤ c.m.val) : c.tiling = c.openTiling := by
  unfold Config.tiling
  split
  next h0 => omega
  next h1 => omega
  next h2 => omega
  next => rfl

/-- The tilings of an admitted build: one of the three settled ones, or an open one within its constraints. -/
theorem tiling_cases (hc : c.Wf) :
    (c.m.val = 0 ∧ c.tiling = (0, 0)) ∨ (c.m.val = 1 ∧ c.tiling = (1, 1)) ∨
      (c.m.val = 2 ∧ c.tiling = (2, 1)) ∨
      (3 ≤ c.m.val ∧ 1 ≤ c.bw ∧ 2 ≤ c.bh ∧ c.m.val ≤ c.bw * c.bh ∧ c.bw * c.bh ≤ 16) := by
  obtain ⟨_, hopen⟩ := hc
  obtain hm | hm | hm | hm : c.m.val = 0 ∨ c.m.val = 1 ∨ c.m.val = 2 ∨ 3 ≤ c.m.val := by omega
  · exact .inl ⟨hm, by simp [Config.tiling, hm]⟩
  · exact .inr (.inl ⟨hm, by simp [Config.tiling, hm]⟩)
  · exact .inr (.inr (.inl ⟨hm, by simp [Config.tiling, hm]⟩))
  · refine .inr (.inr (.inr ⟨hm, ?_⟩))
    rw [Config.bw, Config.bh, tiling_eq_openTiling hm]
    exact hopen hm

/-- The largest BW and BH an admitted build can have are those of 16 blocks in one column or one row (R105). -/
theorem blocks_le_sixteen (hc : c.Wf) : c.bw ≤ 16 ∧ c.bh ≤ 16 ∧ c.bw * c.bh ≤ 16 := by
  rcases tiling_cases hc with ⟨_, h⟩ | ⟨_, h⟩ | ⟨_, h⟩ | ⟨_, hbw, hbh, _, hle⟩
  · simp [Config.bw, Config.bh, h]
  · simp [Config.bw, Config.bh, h]
  · simp [Config.bw, Config.bh, h]
  · exact ⟨by nlinarith, by nlinarith, hle⟩

theorem width_mul_height (c : Config) : c.width * c.height = 16 * (c.bw * c.bh) := by
  simp only [Config.width, Config.height]
  ring

/-- Without modules the grid is empty (R102, R108). -/
theorem dimensions_eq_zero (h : c.m.val = 0) : c.width = 0 ∧ c.height = 0 := by
  simp [Config.width, Config.height, Config.bw, Config.bh, Config.tiling, h]

/-- The coordinates and the indices of the grid, and its dimensions, are bytes (R105). -/
structure GridFitsBytes (c : Config) : Prop where
  width_lt : c.width < 256
  height_lt : c.height < 256
  cells_le : c.width * c.height ≤ 256

theorem gridFitsBytes_of_wf (hc : c.Wf) : GridFitsBytes c := by
  obtain ⟨hbw, hbh, hblocks⟩ := blocks_le_sixteen hc
  refine ⟨?_, ?_, ?_⟩
  · unfold Config.width; omega
  · unfold Config.height; omega
  · rw [width_mul_height]; omega

/-! ### The mixed-radix numbering (R103, R104, R106, R107, R110) -/

section Numbering

variable {bw bh bx by_ i j k : Nat}

theorem moduleSlot_lt (hbx : bx < bw) (hby : by_ < bh) : moduleSlot bw bx by_ < bw * bh := by
  unfold moduleSlot
  nlinarith

theorem moduleSlot_mod (hbx : bx < bw) : moduleSlot bw bx by_ % bw = bx := by
  rw [moduleSlot, Nat.mul_add_mod', Nat.mod_eq_of_lt hbx]

theorem moduleSlot_div (hbx : bx < bw) : moduleSlot bw bx by_ / bw = by_ := by
  rw [moduleSlot, Nat.add_comm, Nat.add_mul_div_right _ _ (by omega), Nat.div_eq_of_lt hbx, Nat.zero_add]

theorem moduleSlot_mod_div (bw k : Nat) : moduleSlot bw (k % bw) (k / bw) = k := Nat.div_add_mod' k bw

/-- The two upper digits of an index are its slot. -/
theorem xyToIndex_div (bw i j : Nat) : xyToIndex bw i j / 16 = moduleSlot bw (i / 4) (j / 4) := by
  unfold xyToIndex intraIndex
  omega

/-- The two lower digits of an index are the place within the module. -/
theorem xyToIndex_mod (bw i j : Nat) : xyToIndex bw i j % 16 = intraIndex (i % 4) (j % 4) := by
  unfold xyToIndex intraIndex
  omega

theorem xyToIndex_lt (hi : i < 4 * bw) (hj : j < 4 * bh) : xyToIndex bw i j < 16 * (bw * bh) := by
  have hslot : xyToIndex bw i j / 16 < bw * bh := by
    rw [xyToIndex_div]
    exact moduleSlot_lt (by omega) (by omega)
  omega

theorem indexToXY_lt (hk : k < 16 * (bw * bh)) : (indexToXY bw k).1 < 4 * bw ∧ (indexToXY bw k).2 < 4 * bh := by
  have hbw : 0 < bw := Nat.pos_of_ne_zero fun h => by simp [h] at hk
  have hbx : k / 16 % bw < bw := Nat.mod_lt _ hbw
  have hby : k / 16 / bw < bh := Nat.div_lt_of_lt_mul (by omega)
  simp only [indexToXY]
  omega

/-- I2XY after XY2I: the digits of an index are the coordinates it was made of. -/
theorem indexToXY_xyToIndex (hi : i < 4 * bw) : indexToXY bw (xyToIndex bw i j) = (i, j) := by
  have hbx : i / 4 < bw := by omega
  simp only [indexToXY, xyToIndex_div, xyToIndex_mod, moduleSlot_mod hbx, moduleSlot_div hbx, intraIndex,
    Prod.mk.injEq]
  omega

/-- XY2I after I2XY: a number is made of its digits. -/
theorem xyToIndex_indexToXY (bw k : Nat) : xyToIndex bw (indexToXY bw k).1 (indexToXY bw k).2 = k := by
  have hbx : (k / 16 % bw * 4 + k % 16 % 4) / 4 = k / 16 % bw := by omega
  have hby : (k / 16 / bw * 4 + k % 16 / 4) / 4 = k / 16 / bw := by omega
  simp only [indexToXY, xyToIndex, hbx, hby, moduleSlot_mod_div, intraIndex]
  omega

/-- One module is numbered row by row (R111). -/
theorem xyToIndex_one (hi : i ≤ 3) (j : Nat) : xyToIndex 1 i j = j * 4 + i := by
  unfold xyToIndex moduleSlot intraIndex
  omega

theorem indexToXY_one (k : Nat) : indexToXY 1 k = (k % 4, k / 4) := by
  simp only [indexToXY, Prod.mk.injEq]
  omega

end Numbering

/-! ### The words of the three commands (R72, R77, R78) -/

theorem encode_xy2i (x y : BitVec 8) : encode (.xy2i x y) = 0x8#4 ++ 0#28 ++ y ++ x := by
  have hzeros : (0x8#4 ++ 0#8 ++ 0#3 ++ BitVec.ofBool false ++ 0#16 : BitVec 32) = 0x8#4 ++ 0#28 := by decide
  calc encode (.xy2i x y)
      = (0x8#4 ++ 0#8 ++ 0#3 ++ BitVec.ofBool false ++ 0#16 : BitVec 32) ++ (y ++ x) := rfl
    _ = 0x8#4 ++ 0#28 ++ y ++ x := by rw [hzeros]; exact BitVec.append_assoc.symm

theorem encode_i2xy (n : BitVec 8) : encode (.i2xy n) = 0x9#4 ++ 0#36 ++ n := by
  have hzeros : (0x9#4 ++ 0#8 ++ 0#3 ++ BitVec.ofBool false ++ 0#16 ++ 0#8 : BitVec 40) = 0x9#4 ++ 0#36 := by
    decide
  calc encode (.i2xy n)
      = (0x9#4 ++ 0#8 ++ 0#3 ++ BitVec.ofBool false ++ 0#16 : BitVec 32) ++ (0#8 ++ n) := rfl
    _ = (0x9#4 ++ 0#8 ++ 0#3 ++ BitVec.ofBool false ++ 0#16 ++ 0#8 : BitVec 40) ++ n := BitVec.append_assoc.symm
    _ = 0x9#4 ++ 0#36 ++ n := by rw [hzeros]

/-! ### What the commands answer (R106 to R109) -/

theorem packXY_toNat (x y : BitVec 8) : packXY x.toNat y.toNat = y ++ x := by
  simp [packXY]

/-- XY2I in the valid domain, answering a byte that holds the index. -/
theorem exec_xy2i_of_toNat_eq (hx : x.toNat < s.cfg.width) (hy : y.toNat < s.cfg.height)
    (hn : n.toNat = xyToIndex s.cfg.bw x.toNat y.toNat) :
    exec (.xy2i x y) s = .next { s with rsp := ok (n.setWidth 16) } := by
  rcases exec_xy2i_cases (s := s) (x := x) (y := y) rfl with ⟨_, _, ho⟩ | ⟨hout, _⟩
  · rw [ho, ← hn, BitVec.ofNat_toNat, BitVec.setWidth_eq]
    rfl
  · omega

/-- XY2I outside the valid domain: a free value, and the draw is used (R108; log 5). -/
theorem exec_xy2i_of_outside (h : s.cfg.width ≤ x.toNat ∨ s.cfg.height ≤ y.toNat) :
    exec (.xy2i x y) s = .next { s with rsp := ok (Config.freeXy2i s.draws x y), draws := s.draws + 1 } := by
  rcases exec_xy2i_cases (s := s) (x := x) (y := y) rfl with ⟨hx, hy, _⟩ | ⟨_, ho⟩
  · omega
  · exact ho

/-- I2XY in the valid domain, answering two bytes that hold the cell. -/
theorem exec_i2xy_of_eq_toNat (hn : n.toNat < s.cfg.width * s.cfg.height)
    (hxy : indexToXY s.cfg.bw n.toNat = (x.toNat, y.toNat)) :
    exec (.i2xy n) s = .next { s with rsp := ok (y ++ x) } := by
  rcases exec_i2xy_cases (s := s) (n := n) rfl with ⟨_, ho⟩ | ⟨hout, _⟩
  · rw [ho, hxy, packXY_toNat]
    rfl
  · omega

/-- I2XY outside the valid domain: a free value, and the draw is used (R108; log 5). -/
theorem exec_i2xy_of_outside (h : s.cfg.width * s.cfg.height ≤ n.toNat) :
    exec (.i2xy n) s = .next { s with rsp := ok (Config.freeI2xy s.draws n), draws := s.draws + 1 } := by
  rcases exec_i2xy_cases (s := s) (n := n) rfl with ⟨hn, _⟩ | ⟨_, ho⟩
  · omega
  · exact ho

/-- On a grid that fits bytes, XY2I of a cell answers its index uncut, an index of the grid. -/
theorem exec_xy2i_of_gridFitsBytes (hfits : GridFitsBytes s.cfg) (hx : x.toNat < s.cfg.width)
    (hy : y.toNat < s.cfg.height) :
    ∃ n : BitVec 8, n.toNat = xyToIndex s.cfg.bw x.toNat y.toNat ∧ n.toNat < s.cfg.width * s.cfg.height ∧
      exec (.xy2i x y) s = .next { s with rsp := ok (n.setWidth 16) } := by
  have hlt : xyToIndex s.cfg.bw x.toNat y.toNat < s.cfg.width * s.cfg.height := by
    rw [width_mul_height]
    exact xyToIndex_lt hx hy
  have hbyte := hlt.trans_le hfits.cells_le
  exact ⟨BitVec.ofNatLT _ hbyte, rfl, hlt, exec_xy2i_of_toNat_eq hx hy rfl⟩

/-- On a grid that fits bytes, I2XY of an index answers its cell uncut, a cell of the grid. -/
theorem exec_i2xy_of_gridFitsBytes (hfits : GridFitsBytes s.cfg) (hn : n.toNat < s.cfg.width * s.cfg.height) :
    ∃ x y : BitVec 8, indexToXY s.cfg.bw n.toNat = (x.toNat, y.toNat) ∧ x.toNat < s.cfg.width ∧
      y.toNat < s.cfg.height ∧ exec (.i2xy n) s = .next { s with rsp := ok (y ++ x) } := by
  obtain ⟨hx, hy⟩ := indexToXY_lt (width_mul_height s.cfg ▸ hn)
  exact ⟨BitVec.ofNatLT _ (hx.trans hfits.width_lt), BitVec.ofNatLT _ (hy.trans hfits.height_lt), rfl, hx, hy,
    exec_i2xy_of_eq_toNat hn rfl⟩

/-! ### The statements about the grid -/

/-- Settles O51: each command reads back the digits the other made, on a grid that fits bytes. -/
theorem gridMappingIsABijection : Obligations.GridMappingIsABijection := by
  unfold Obligations.GridMappingIsABijection
  intro s hwf _ _
  have hfits := gridFitsBytes_of_wf hwf
  refine ⟨fun x y hx hy => ?_, fun n hn => ?_⟩
  · obtain ⟨n, hindex, hn, hexec⟩ := exec_xy2i_of_gridFitsBytes hfits hx hy
    have hback : indexToXY s.cfg.bw n.toNat = (x.toNat, y.toNat) := by
      rw [hindex, indexToXY_xyToIndex hx]
    exact ⟨n, hn, hexec, exec_i2xy_of_eq_toNat hn hback⟩
  · obtain ⟨x, y, hcell, hx, hy, hexec⟩ := exec_i2xy_of_gridFitsBytes hfits hn
    have hback : n.toNat = xyToIndex s.cfg.bw x.toNat y.toNat := by
      simpa [hcell] using (xyToIndex_indexToXY s.cfg.bw n.toNat).symm
    exact ⟨x, y, hx, hy, hexec, exec_xy2i_of_toNat_eq hx hy hback⟩

/-- Settles O47: the index of a cell fits a byte, so the response holds it uncut. -/
theorem xy2iAnswersTheAbsoluteIndex : Obligations.Xy2iAnswersTheAbsoluteIndex := by
  unfold Obligations.Xy2iAnswersTheAbsoluteIndex
  refine ⟨fun m x y => ?_, fun s x y hwf hx hy => ?_, fun s x y hout => ?_⟩
  · rw [← encode_xy2i]
    exact decode_encode rfl
  · obtain ⟨n, hindex, _, hexec⟩ := exec_xy2i_of_gridFitsBytes (gridFitsBytes_of_wf hwf) hx hy
    exact ⟨n.setWidth 16, (BitVec.toNat_setWidth_of_le (by decide)).trans hindex, hexec⟩
  · exact ⟨_, _, exec_xy2i_of_outside hout⟩

/-- Settles O48: the coordinates of an index fit a byte each, so the response holds them uncut. -/
theorem i2xyAnswersTheCell : Obligations.I2xyAnswersTheCell := by
  unfold Obligations.I2xyAnswersTheCell
  refine ⟨fun m n => ?_, fun s n hwf hn => ?_, fun s n hout => ?_⟩
  · rw [← encode_i2xy]
    exact decode_encode rfl
  · obtain ⟨x, y, hcell, hx, hy, hexec⟩ := exec_i2xy_of_gridFitsBytes (gridFitsBytes_of_wf hwf) hn
    obtain ⟨hxval, hyval⟩ := Prod.mk.inj hcell
    exact ⟨x, y, hxval.symm, hyval.symm, hx, hy, hexec⟩
  · exact ⟨_, _, exec_i2xy_of_outside hout⟩

/-- Settles O52, by the general rules with BW = BH = 1: width and height are 4. -/
theorem singleModuleIsRowMajor : Obligations.SingleModuleIsRowMajor := by
  unfold Obligations.SingleModuleIsRowMajor
  intro s hbw hbh
  have hw : s.cfg.width = 4 := by rw [Config.width, hbw]
  have hh : s.cfg.height = 4 := by rw [Config.height, hbh]
  have hfits : GridFitsBytes s.cfg := ⟨by omega, by omega, by rw [hw, hh]; decide⟩
  refine ⟨fun x y hx hy => ?_, fun n hn => ?_⟩
  · obtain ⟨n, hindex, _, hexec⟩ := exec_xy2i_of_gridFitsBytes (x := x) (y := y) hfits (by omega) (by omega)
    rw [hbw, xyToIndex_one hx] at hindex
    exact ⟨n.setWidth 16, (BitVec.toNat_setWidth_of_le (by decide)).trans hindex, hexec⟩
  · obtain ⟨x, y, hcell, _, _, hexec⟩ := exec_i2xy_of_gridFitsBytes (n := n) hfits (by rw [hw, hh]; omega)
    rw [hbw, indexToXY_one] at hcell
    obtain ⟨hxval, hyval⟩ := Prod.mk.inj hcell
    exact ⟨x, y, hxval.symm, hyval.symm, hexec⟩

/-- Settles O46, from the case analysis of the tilings; no two of its cases have the same M. -/
theorem tilingIsSettledUpToTwoModules : Obligations.TilingIsSettledUpToTwoModules := by
  unfold Obligations.TilingIsSettledUpToTwoModules
  intro c hwf
  rcases tiling_cases hwf with ⟨hm, ht⟩ | ⟨hm, ht⟩ | ⟨hm, ht⟩ | ⟨hm, hopen⟩
  · simp [hm, Config.bw, Config.bh, ht]
  · simp [hm, Config.bw, Config.bh, ht]
  · simp [hm, Config.bw, Config.bh, ht]
  · exact ⟨by omega, by omega, by omega, fun _ => hopen⟩

/-- Settles O49: the data is the model's free value of the draw, which the statement leaves open. -/
theorem outOfDomainMappingAnswersAnyValue : Obligations.OutOfDomainMappingAnswersAnyValue := by
  unfold Obligations.OutOfDomainMappingAnswersAnyValue
  exact ⟨fun _ hm => dimensions_eq_zero hm, fun _ _ _ hout => ⟨_, exec_xy2i_of_outside hout⟩,
    fun _ _ hout => ⟨_, exec_i2xy_of_outside hout⟩⟩

/-- Settles O50: the dimensions of an admitted build fit a byte each. -/
theorem griddimAnswersTheDimensions : Obligations.GriddimAnswersTheDimensions := by
  unfold Obligations.GriddimAnswersTheDimensions
  refine ⟨fun m => decode_encode (i := .griddim) rfl, fun s hwf => ?_⟩
  have hfits := gridFitsBytes_of_wf hwf
  refine ⟨BitVec.ofNatLT _ hfits.width_lt, BitVec.ofNatLT _ hfits.height_lt, rfl, rfl, ?_, fun hm => ?_⟩
  · rw [exec_griddim, ← packXY_toNat]
    rfl
  · obtain ⟨hw, hh⟩ := dimensions_eq_zero hm
    rw [← packXY_toNat, BitVec.toNat_ofNatLT, BitVec.toNat_ofNatLT, hw, hh]
    rfl

end Sys2Proof.Machine

/-! PROOFS of the family 41_quadrature_decoder: what the decoder step does, and what SAMPLE and POLL make of
it. With `subStep` for the printed table, a step is quiet, pending or emitting, one equation each; an emission
is always twice its sub-step, so it moves VALUE by one click. A sequence of samples is then an induction over a
relation that one step has and that composes. -/

namespace Sys2Proof.Machine

open Sys2Proof.Claims

variable {s t : State} {e : BitVec 8} {r r' q : Encoder} {click : ClickStep} {cur c : PinState}
  {cs : List PinState}

/-! ### The transition table (R121 to R123) -/

theorem quadKey_toNat (p c : PinState) : (quadKey p c).toNat = 4 * p.toNat + c.toNat := by
  revert p c; decide

theorem qtable_toInt (k : BitVec 4) : (qtable k).toInt = qtableAsPrinted.getD k.toNat 0 := by
  revert k; decide

/-- Settles O24: both are finite tables, compared entry by entry. -/
theorem transitionTableIsAsPrinted : Obligations.TransitionTableIsAsPrinted := by
  unfold Obligations.TransitionTableIsAsPrinted
  exact ⟨quadKey_toNat, qtable_toInt⟩

/-- A transition and its reverse have opposite sub-steps (R123). -/
theorem subStep_reverse (p c : PinState) : subStep c p = - subStep p c := by
  revert p c; decide

/-- Settles O25: the table is antisymmetric, and its other two properties are read off its sixteen keys. -/
theorem transitionTableIsGrayConsistent : Obligations.TransitionTableIsGrayConsistent := by
  unfold Obligations.TransitionTableIsGrayConsistent
  refine ⟨fun p c => ?_, by decide, by decide⟩
  change (qtable (quadKey p c)).toInt = -(qtable (quadKey c p)).toInt
  rw [toInt_qtable_quadKey, toInt_qtable_quadKey, subStep_reverse c p]

theorem subStep_bounds (p c : PinState) : -1 ≤ subStep p c ∧ subStep p c ≤ 1 := by
  revert p c; decide

/-- On a valid key the sub-step is the progress of the pin state round the cycle (R122). -/
theorem four_dvd_subStep_sub_phase {p c : PinState} (h : subStep p c ≠ 0) :
    4 ∣ subStep p c - (phase c - phase p) := by
  revert p c; decide

theorem subStep_forward (p : PinState) : subStep p (forward p) = 1 := by
  revert p; decide

theorem forward_four_times (p : PinState) : forward (forward (forward (forward p))) = p := by
  revert p; decide

/-! ### ACC (R26) -/

theorem subStep_toInt_bounds (a : SubStep) : -1 ≤ a.toInt ∧ a.toInt ≤ 1 := by
  cases a <;> decide

theorem subStep_toInt_injective : Function.Injective SubStep.toInt := by
  intro a b; cases a <;> cases b <;> decide

theorem subStep_toInt_ofInt {k : Int} (hlo : -1 ≤ k) (hhi : k ≤ 1) : (SubStep.ofInt k).toInt = k := by
  obtain rfl | rfl | rfl : k = -1 ∨ k = 0 ∨ k = 1 := by omega
  all_goals rfl

/-! ### The three cases of the decoder step (R124 to R128) -/

/-- The step emits: its sum of ACC and sub-step reaches magnitude 2 (R126, R127). -/
def Encoder.Emits (r : Encoder) (cur : PinState) : Prop :=
  r.acc.toInt + subStep r.prev cur = 2 ∨ r.acc.toInt + subStep r.prev cur = -2

/-- ACC and the sub-step have magnitude 1 at most, so a sum of magnitude 2 has them equal. -/
theorem emits_sum_eq (h : r.Emits cur) : r.acc.toInt + subStep r.prev cur = 2 * subStep r.prev cur := by
  have hacc := subStep_toInt_bounds r.acc
  have hsub := subStep_bounds r.prev cur
  rcases h with h | h <;> omega

theorem emits_subStep_ne_zero (h : r.Emits cur) : subStep r.prev cur ≠ 0 := by
  have hsum := emits_sum_eq h
  rcases h with h | h <;> omega

theorem sign_emits_sum (h : r.Emits cur) :
    sign (r.acc.toInt + subStep r.prev cur) = subStep r.prev cur := by
  have hsum := emits_sum_eq h
  rcases h with h | h <;> rw [h] at hsum ⊢ <;> unfold sign <;> omega

/-- Without an emission the sum is a value of ACC. -/
theorem subStep_toInt_ofInt_sum (h : ¬ r.Emits cur) :
    (SubStep.ofInt (r.acc.toInt + subStep r.prev cur)).toInt = r.acc.toInt + subStep r.prev cur := by
  have hacc := subStep_toInt_bounds r.acc
  have hsub := subStep_bounds r.prev cur
  obtain ⟨hne, hne'⟩ := not_or.mp h
  exact subStep_toInt_ofInt (by omega) (by omega)

theorem encoderStep_of_pending (hvalid : subStep r.prev cur ≠ 0) (h : ¬ r.Emits cur) :
    ∃ acc, acc.toInt = r.acc.toInt + subStep r.prev cur ∧
      r.step click cur = some ({ r with prev := cur, acc := acc }, 0) := by
  refine ⟨_, subStep_toInt_ofInt_sum h, ?_⟩
  rw [Encoder.Emits] at h
  simp [Encoder.step, toInt_qtable_quadKey, mt qtable_eq_zero_iff.mp hvalid, h]

theorem encoderStep_of_emits (h : r.Emits cur) (hle : r.Ordered) :
    ∃ v : Reg,
      Applied (r.value.toInt + subStep r.prev cur * click.toInt) r.lo.toInt r.hi.toInt r.wrap v.toInt ∧
      r.step click cur =
        some ({ r with prev := cur, acc := .zero, value := v }, r.acc.toInt + subStep r.prev cur) := by
  have hkey : qtable (quadKey r.prev cur) ≠ .zero := mt qtable_eq_zero_iff.mp (emits_subStep_ne_zero h)
  have hsign := sign_emits_sum h
  obtain ⟨v, hnorm, happlied⟩ := normalise_applied (q := { r with prev := cur, acc := .zero }) hle
    (r.value.toInt + subStep r.prev cur * click.toInt)
  refine ⟨v, happlied, ?_⟩
  rw [Encoder.Emits] at h
  simp [Encoder.step, toInt_qtable_quadKey, signed16, hkey, h, hsign, hnorm]

/-- Settles O26, from the equation of each case and the condition of a refusal. -/
theorem decoderStepFollowsItsRules : Obligations.DecoderStepFollowsItsRules := by
  unfold Obligations.DecoderStepFollowsItsRules
  intro click r cur
  refine ⟨encoderStep_of_subStep_eq_zero, fun hvalid => ⟨fun hpending => ?_, fun hemits => ⟨?_, ?_⟩⟩⟩
  · exact encoderStep_of_pending hvalid (not_or.mpr hpending)
  · exact encoderStep_of_emits hemits
  · exact fun hcrossed => encoderStep_refused_iff.mpr ⟨hemits, hcrossed⟩

/-! ### Sequences of samples -/

theorem samples_cons {d sub del : Int} (hstep : r.step click c = some (r', d))
    (hrest : samples click r' cs = some (q, sub, del)) :
    samples click r (c :: cs) = some (q, subStep r.prev c + sub, d + del) := by
  simp [samples, hstep, hrest]

/-- A sequence that is not refused is a step and a sequence. -/
theorem samples_cons_cases {sub del : Int} (h : samples click r (c :: cs) = some (q, sub, del)) :
    ∃ r' d sub' del', r.step click c = some (r', d) ∧ samples click r' cs = some (q, sub', del') ∧
      sub = subStep r.prev c + sub' ∧ del = d + del' := by
  simp only [samples] at h
  split at h
  · cases h
  · rename_i r' d hstep
    split at h
    · cases h
    · rename_i q' sub' del' hrest
      cases h
      exact ⟨r', d, sub', del', hstep, hrest, rfl, rfl⟩

/-! ### Sub-steps are conserved -/

/-- From `r` to `r'` the sub-steps counted add up to `sub` and the deltas emitted to `del`: none is lost, they
follow PREV round the cycle, and what is emitted is whole clicks (R125 to R127). -/
structure ConservesSubSteps (r r' : Encoder) (sub del : Int) : Prop where
  acc : r.acc.toInt + sub = r'.acc.toInt + del
  phase : 4 ∣ sub - (phase r'.prev - phase r.prev)
  even : 2 ∣ del

theorem conservesSubSteps_refl (r : Encoder) : ConservesSubSteps r r 0 0 := by
  constructor <;> simp

theorem ConservesSubSteps.trans {sub sub' del del' : Int} (h : ConservesSubSteps r r' sub del)
    (h' : ConservesSubSteps r' q sub' del') : ConservesSubSteps r q (sub + sub') (del + del') := by
  obtain ⟨hacc, hphase, heven⟩ := h
  obtain ⟨hacc', hphase', heven'⟩ := h'
  constructor <;> omega

theorem encoderStep_conservesSubSteps {d : Int} (h : r.step click c = some (r', d)) :
    ConservesSubSteps r r' (subStep r.prev c) d := by
  rcases encoderStep_cases h with ⟨hzero, rfl, rfl⟩ | ⟨hvalid, hpending, rfl, rfl⟩ |
    ⟨hvalid, rfl, hemits, v, _, rfl⟩
  · rw [qtable_eq_zero_iff.mp hzero]
    exact conservesSubSteps_refl _
  · rw [toInt_qtable_quadKey] at hpending ⊢
    refine ⟨?_, four_dvd_subStep_sub_phase (mt qtable_eq_zero_iff.mpr hvalid), dvd_zero 2⟩
    rw [add_zero]
    exact (subStep_toInt_ofInt_sum (not_or.mpr hpending)).symm
  · rw [toInt_qtable_quadKey] at hemits ⊢
    refine ⟨(zero_add _).symm, four_dvd_subStep_sub_phase (mt qtable_eq_zero_iff.mpr hvalid), ?_⟩
    rw [emits_sum_eq hemits]
    exact dvd_mul_right 2 _

theorem samples_conservesSubSteps {sub del : Int} (h : samples click r cs = some (q, sub, del)) :
    ConservesSubSteps r q sub del := by
  induction cs generalizing r sub del with
  | nil => cases h; exact conservesSubSteps_refl _
  | cons c cs ih =>
    obtain ⟨r', d, sub', del', hstep, hrest, rfl, rfl⟩ := samples_cons_cases h
    exact (encoderStep_conservesSubSteps hstep).trans (ih hrest)

/-- Settles O31, by induction on the samples. -/
theorem subStepsAreConserved : Obligations.SubStepsAreConserved := by
  unfold Obligations.SubStepsAreConserved
  intro click r r' cs sub del h
  obtain ⟨hacc, hphase, heven⟩ := samples_conservesSubSteps h
  exact ⟨hacc, hphase, heven⟩

/-! ### VALUE counts clicks -/

/-- From `r` to `r'` the bounds and the policy stay, and a wrapping VALUE moves by `k` clicks modulo the span
(R128, R151). -/
structure CountsClicks (click : ClickStep) (r r' : Encoder) (k : Int) : Prop where
  lo : r'.lo = r.lo
  hi : r'.hi = r.hi
  wrap : r'.wrap = r.wrap
  value : r.wrap = true →
    (r.hi.toInt - r.lo.toInt + 1) ∣ (r'.value.toInt - (r.value.toInt + k * click.toInt))

/-- Writes to PREV and ACC alone are no click. -/
theorem countsClicks_zero (click : ClickStep) (r : Encoder) (prev : PinState) (acc : SubStep) :
    CountsClicks click r { r with prev := prev, acc := acc } 0 := by
  constructor <;> simp

theorem CountsClicks.trans {k k' : Int} (h : CountsClicks click r r' k)
    (h' : CountsClicks click r' q k') : CountsClicks click r q (k + k') := by
  obtain ⟨hlo, hhi, hwrap, hvalue⟩ := h
  obtain ⟨hlo', hhi', hwrap', hvalue'⟩ := h'
  rw [hlo, hhi, hwrap] at hvalue'
  refine ⟨hlo'.trans hlo, hhi'.trans hhi, hwrap'.trans hwrap, fun hw => ?_⟩
  have hsum : q.value.toInt - (r.value.toInt + (k + k') * click.toInt) =
      (r'.value.toInt - (r.value.toInt + k * click.toInt)) +
        (q.value.toInt - (r'.value.toInt + k' * click.toInt)) := by ring
  rw [hsum]
  exact dvd_add (hvalue hw) (hvalue' hw)

/-- With LO ≤ HI a step completes, and it emits two for each click that VALUE takes. -/
theorem encoderStep_countsClicks (hle : r.Ordered) (click : ClickStep) (c : PinState) :
    ∃ r' k, r.step click c = some (r', 2 * k) ∧ CountsClicks click r r' k := by
  by_cases hzero : subStep r.prev c = 0
  · exact ⟨r, 0, encoderStep_of_subStep_eq_zero hzero, countsClicks_zero _ _ _ _⟩
  by_cases hemits : r.Emits c
  · obtain ⟨v, ⟨_, _, _, hwrapped⟩, hstep⟩ := encoderStep_of_emits (click := click) hemits hle
    rw [emits_sum_eq hemits] at hstep
    exact ⟨_, subStep r.prev c, hstep, rfl, rfl, rfl, hwrapped⟩
  · obtain ⟨acc, _, hstep⟩ := encoderStep_of_pending (click := click) hzero hemits
    exact ⟨_, 0, hstep, countsClicks_zero _ _ _ _⟩

theorem samples_countsClicks (hle : r.Ordered) (click : ClickStep) (cs : List PinState) :
    ∃ r' sub k, samples click r cs = some (r', sub, 2 * k) ∧ CountsClicks click r r' k := by
  induction cs generalizing r with
  | nil => exact ⟨r, 0, 0, rfl, countsClicks_zero _ _ _ _⟩
  | cons c cs ih =>
    obtain ⟨r', k, hstep, hcount⟩ := encoderStep_countsClicks hle click c
    have hle' : r'.Ordered := by rw [Encoder.Ordered, hcount.lo, hcount.hi]; exact hle
    obtain ⟨q, sub, k', hrest, hcount'⟩ := ih hle'
    refine ⟨q, subStep r.prev c + sub, k + k', ?_, hcount.trans hcount'⟩
    rw [mul_add]
    exact samples_cons hstep hrest

/-- Settles O32, by induction on the samples: LO ≤ HI stays, because the bounds do. -/
theorem wrappedValueCountsClicks : Obligations.WrappedValueCountsClicks := by
  unfold Obligations.WrappedValueCountsClicks
  intro click r cs hle
  obtain ⟨r', sub, k, hsamples, hlo, hhi, hwrap, hvalue⟩ := samples_countsClicks hle click cs
  exact ⟨r', sub, k, hsamples, hlo, hhi, hwrap, hvalue⟩

/-! ### SAMPLE (R130) -/

theorem exec_sample_of_step {ab : PinState} {d : Int} (hr : s.encs[e.toNat]? = some r)
    (hstep : r.step s.cfg.clickStep ab = some (r', d)) :
    exec (.sample e ab) s = .next (respond (bits16 d) (setEncoder e.toNat r' s)) := by
  simp [exec, execSample, onEncoder_of_record hr, hstep, encIndex]

/-- Settles O27: the record is written back as it is. -/
theorem sampleOnZeroSubStepChangesNothing : Obligations.SampleOnZeroSubStepChangesNothing := by
  unfold Obligations.SampleOnZeroSubStepChangesNothing
  intro s e ab r hr hzero
  rw [exec_sample_of_step hr (encoderStep_of_subStep_eq_zero hzero), setEncoder_self hr]
  rfl

/-- Settles O28, by the equation of a pending step. -/
theorem sampleAccumulatesAPendingSubStep : Obligations.SampleAccumulatesAPendingSubStep := by
  unfold Obligations.SampleAccumulatesAPendingSubStep
  intro s e ab r hr hvalid hne hne'
  obtain ⟨acc, hacc, hstep⟩ := encoderStep_of_pending hvalid (not_or.mpr ⟨hne, hne'⟩)
  exact ⟨acc, hacc, exec_sample_of_step hr hstep⟩

/-- The delta of an emission fits the response (R80). -/
theorem bits16_two_mul_subStep_toInt (p c : PinState) :
    (bits16 (2 * subStep p c)).toInt = 2 * subStep p c := by
  revert p c; decide

/-- Settles O29, by the equation of an emitting step. -/
theorem sampleEmitsAClick : Obligations.SampleEmitsAClick := by
  unfold Obligations.SampleEmitsAClick
  intro s e ab r hr _ hemits hle
  obtain ⟨v, happlied, hstep⟩ := encoderStep_of_emits hemits hle
  rw [emits_sum_eq hemits] at hstep ⊢
  exact ⟨v, _, happlied, bits16_two_mul_subStep_toInt r.prev ab, exec_sample_of_step hr hstep⟩

/-! ### Two samples of one encoder (R131, R132) -/

/-- From ACC = 0 no single step emits. -/
theorem not_emits_of_acc_eq_zero (hacc : r.acc.toInt = 0) : ¬ r.Emits cur := by
  have hsub := subStep_bounds r.prev cur
  rintro (h | h) <;> omega

/-- A clean detent of the record: the first step is pending, the second emits and brings ACC back to 0. -/
theorem encoderStep_detent {c1 c2 : PinState} (click : ClickStep) (hacc : r.acc.toInt = 0)
    (hle : r.Ordered) (hvalid : subStep r.prev c1 ≠ 0) (hsame : subStep c1 c2 = subStep r.prev c1) :
    ∃ (r1 : Encoder) (v : Reg),
      r.step click c1 = some (r1, 0) ∧
      r1.step click c2 = some ({ r with prev := c2, value := v }, 2 * subStep r.prev c1) ∧
      Applied (r.value.toInt + subStep r.prev c1 * click.toInt) r.lo.toInt r.hi.toInt r.wrap v.toInt := by
  obtain ⟨acc, hacc1, hstep1⟩ :=
    encoderStep_of_pending (click := click) hvalid (not_emits_of_acc_eq_zero hacc)
  have hsub := subStep_bounds r.prev c1
  have hemits : Encoder.Emits { r with prev := c1, acc := acc } c2 := by
    simp only [Encoder.Emits, hacc1, hsame]
    omega
  obtain ⟨v, happlied, hstep2⟩ := encoderStep_of_emits (click := click) hemits hle
  rw [emits_sum_eq hemits] at hstep2
  simp only [hsame, ← subStep_toInt_eq_zero_iff.mp hacc] at happlied hstep2
  exact ⟨_, v, hstep1, hstep2, happlied⟩

/-- A bounce of the record: the two sub-steps are opposite, so neither step emits and ACC is back at 0. -/
theorem encoderStep_bounce (click : ClickStep) (hacc : r.acc.toInt = 0) (hvalid : subStep r.prev c ≠ 0) :
    ∃ r1 : Encoder, r.step click c = some (r1, 0) ∧ r1.step click r.prev = some (r, 0) := by
  obtain ⟨acc, hacc1, hstep1⟩ :=
    encoderStep_of_pending (click := click) hvalid (not_emits_of_acc_eq_zero hacc)
  have hreverse := subStep_reverse r.prev c
  have hquiet : ¬ Encoder.Emits { r with prev := c, acc := acc } r.prev := by
    simp only [Encoder.Emits]
    omega
  obtain ⟨acc', hacc2, hstep2⟩ := encoderStep_of_pending (click := click)
    (r := { r with prev := c, acc := acc }) (cur := r.prev) (by simpa [hreverse] using hvalid) hquiet
  simp only at hacc2
  obtain rfl : acc' = r.acc := subStep_toInt_injective (by omega)
  exact ⟨_, hstep1, hstep2⟩

/-- A second write of a record, and a second response, leave nothing of the first. -/
theorem respond_setEncoder_twice (k : Nat) (r r' : Encoder) (d d' : BitVec 16) (s : State) :
    respond d' (setEncoder k r' (respond d (setEncoder k r s))) = respond d' (setEncoder k r' s) := by
  simp [respond, setEncoder, List.set_set]

/-- Two samples of one encoder are two steps of its record. -/
theorem exec_sample_twice {c1 c2 : PinState} {d1 d2 : Int} (hr : s.encs[e.toNat]? = some r)
    (hstep1 : r.step s.cfg.clickStep c1 = some (r', d1))
    (hstep2 : r'.step s.cfg.clickStep c2 = some (q, d2)) :
    ∃ s1, exec (.sample e c1) s = .next s1 ∧ s1.rsp = ok (bits16 d1) ∧
      exec (.sample e c2) s1 = .next (respond (bits16 d2) (setEncoder e.toNat q s)) := by
  have hr' : (respond (bits16 d1) (setEncoder e.toNat r' s)).encs[e.toNat]? = some r' :=
    setEncoder_same hr
  refine ⟨_, exec_sample_of_step hr hstep1, rfl, ?_⟩
  rw [exec_sample_of_step hr' hstep2, respond_setEncoder_twice]

/-- Settles O33, by the clean detent of the record. -/
theorem cleanDetentIsOneClick : Obligations.CleanDetentIsOneClick := by
  unfold Obligations.CleanDetentIsOneClick
  intro s e r c1 c2 hr hacc hle hvalid hsame
  obtain ⟨r1, v, hstep1, hstep2, happlied⟩ :=
    encoderStep_detent s.cfg.clickStep hacc hle hvalid hsame
  obtain ⟨s1, hexec1, hrsp1, hexec2⟩ := exec_sample_twice hr hstep1 hstep2
  exact ⟨s1, _, v, _, hexec1, hrsp1, hexec2, rfl, bits16_two_mul_subStep_toInt r.prev c1, happlied,
    setEncoder_same hr⟩

/-- Settles O34, by the bounce of the record, which is written back as it was. -/
theorem bounceCancelsItself : Obligations.BounceCancelsItself := by
  unfold Obligations.BounceCancelsItself
  intro s e r c hr hacc hvalid
  obtain ⟨r1, hstep1, hstep2⟩ := encoderStep_bounce s.cfg.clickStep hacc hvalid
  obtain ⟨s1, hexec1, hrsp1, hexec2⟩ := exec_sample_twice hr hstep1 hstep2
  rw [setEncoder_self hr] at hexec2
  exact ⟨s1, _, hexec1, hrsp1, hexec2, rfl⟩

/-- Under either policy Apply answers a raw value that lies in the bounds (R153). -/
theorem applied_eq_of_mem_bounds {raw lo hi v : Int} {wrap : Bool} (h : Applied raw lo hi wrap v)
    (hlo : lo ≤ raw) (hhi : raw ≤ hi) : v = raw := by
  obtain ⟨hvlo, hvhi, hclip, hwrap⟩ := h
  cases wrap with
  | false =>
    obtain ⟨_, _, hmem⟩ := hclip rfl
    exact hmem hlo hhi
  | true =>
    have hsmall : |v - raw| < hi - lo + 1 := abs_lt.mpr ⟨by omega, by omega⟩
    exact sub_eq_zero.mp (Int.eq_zero_of_abs_lt_dvd (hwrap rfl) hsmall)

/-- Half a cycle forward is one clean detent, and a VALUE with room for it moves by CLICK_STEP. -/
theorem encoderStep_halfCycle (click : ClickStep) (hacc : r.acc.toInt = 0)
    (hlo : r.lo.toInt ≤ r.value.toInt + click.toInt) (hhi : r.value.toInt + click.toInt ≤ r.hi.toInt) :
    ∃ (r1 : Encoder) (v : Reg),
      r.step click (forward r.prev) = some (r1, 0) ∧
      r1.step click (forward (forward r.prev)) =
        some ({ r with prev := forward (forward r.prev), value := v }, 2) ∧
      v.toInt = r.value.toInt + click.toInt := by
  have hone := subStep_forward r.prev
  obtain ⟨r1, v, hstep1, hstep2, happlied⟩ :=
    encoderStep_detent (c1 := forward r.prev) (c2 := forward (forward r.prev)) click hacc (hlo.trans hhi)
      (by rw [hone]; decide) (by rw [subStep_forward, hone])
  rw [hone, one_mul] at happlied
  rw [hone, mul_one] at hstep2
  exact ⟨r1, v, hstep1, hstep2, applied_eq_of_mem_bounds happlied hlo hhi⟩

theorem clickStep_toInt_pos (click : ClickStep) : 0 < click.toInt := by
  cases click <;> decide

/-- Settles O35: the full cycle is half a cycle twice. -/
theorem fullCycleIsTwoClicks : Obligations.FullCycleIsTwoClicks := by
  unfold Obligations.FullCycleIsTwoClicks
  intro click r hacc hlo hhi
  have hpos := clickStep_toInt_pos click
  obtain ⟨r1, v, hstep1, hstep2, hv⟩ :=
    encoderStep_halfCycle click hacc (by omega) (by omega)
  obtain ⟨r3, v', hstep3, hstep4, hv'⟩ :=
    encoderStep_halfCycle (r := { r with prev := forward (forward r.prev), value := v }) click hacc
      (by simp only [hv]; omega) (by simp only [hv]; omega)
  refine ⟨r1, _, r3, _, hstep1, hstep2, hstep3, hstep4, forward_four_times r.prev, rfl, ?_⟩
  simp only [hv', hv]
  ring

/-! ### POLL (R175) -/

/-- A completed POLL has stepped every record with its own PinRead. -/
theorem exec_poll_record {i : Nat} (h : exec .poll s = .next t) (hr : s.encs[i]? = some r) :
    ∃ r' d, r.step s.cfg.clickStep (pinRead s i) = some (r', d) ∧ t.encs[i]? = some r' := by
  rcases exec_poll_cases h with ⟨_, _, ho⟩ | ⟨es, hloop, ho⟩ <;> cases ho
  obtain ⟨_, hall⟩ := pollFrom_ok hloop
  simpa using hall i r hr

/-- POLL adds no record. -/
theorem exec_poll_no_record {i : Nat} (h : exec .poll s = .next t) (hi : s.encs.length ≤ i) :
    t.encs[i]? = none :=
  List.getElem?_eq_none ((exec_poll_frame h).encs_length ▸ hi)

/-- Settles O20: with a record both take the same decoder step, without one neither writes. -/
theorem pollIsSampleOfEveryEncoder : Obligations.PollIsSampleOfEveryEncoder := by
  unfold Obligations.PollIsSampleOfEveryEncoder
  intro s t e h
  rcases hr : s.encs[e.toNat]? with _ | r
  · have hl : s.encs.length ≤ e.toNat := List.getElem?_eq_none_iff.mp hr
    exact ⟨takeIllegal s, exec_of_no_record rfl hl, hr.trans (exec_poll_no_record h hl).symm⟩
  · obtain ⟨r', d, hstep, ht⟩ := exec_poll_record h hr
    exact ⟨_, exec_sample_of_step hr hstep, (setEncoder_same hr).trans ht.symm⟩

/-- Settles O23: the decoder step of an encoder is a function of what the two runs share. -/
theorem pollTreatsEncodersApart : Obligations.PollTreatsEncodersApart := by
  unfold Obligations.PollTreatsEncodersApart
  intro s s' t t' i hclick henc hpin h h'
  rcases hr : s.encs[i]? with _ | r
  · rw [exec_poll_no_record h (List.getElem?_eq_none_iff.mp hr),
      exec_poll_no_record h' (List.getElem?_eq_none_iff.mp (henc ▸ hr))]
  · obtain ⟨q, d, hstep, ht⟩ := exec_poll_record h hr
    obtain ⟨q', d', hstep', ht'⟩ := exec_poll_record h' (henc ▸ hr)
    rw [hclick, hpin, hstep'] at hstep
    obtain ⟨rfl, _⟩ : q' = q ∧ d' = d := by simpa using hstep
    rw [ht, ht']

/-! ### PREV and ACC (R134) -/

/-- PREV and ACC of every encoder, in the form of the statement about them. -/
def State.decoderState (s : State) : List (PinState × SubStep) := s.encs.map fun r => (r.prev, r.acc)

/-- A write that keeps PREV and ACC of the record it replaces keeps them all. -/
theorem decoderState_setEncoder {k : Nat} (hr : s.encs[k]? = some r) (hprev : r'.prev = r.prev)
    (hacc : r'.acc = r.acc) : (setEncoder k r' s).decoderState = s.decoderState := by
  calc (setEncoder k r' s).decoderState
      = s.decoderState.set k (r'.prev, r'.acc) := List.map_set
    _ = (setEncoder k r s).decoderState := by rw [hprev, hacc]; exact List.map_set.symm
    _ = s.decoderState := by rw [setEncoder_self hr]

theorem exec_decoderState {i : Instr} (hpoll : i ≠ .poll) (hsample : ∀ e ab, i ≠ .sample e ab)
    (h : exec i s = .next t) : t.decoderState = s.decoderState := by
  cases i with
  | poll => exact absurd rfl hpoll
  | sample e ab => exact absurd rfl (hsample e ab)
  | setbounds e lo hi wrap =>
    rcases exec_setbounds_cases h with ⟨_, ho⟩ | ⟨r, hr, ho⟩ <;> cases ho
    · rfl
    · exact decoderState_setEncoder hr rfl rfl
  | setvalue e v =>
    rcases exec_setvalue_cases h with ⟨_, ho⟩ | ⟨_, _, _, ho⟩ | ⟨r, r', hr, hnorm, ho⟩ <;> cases ho
    · rfl
    · obtain ⟨_, _, rfl⟩ := normalise_cases hnorm
      exact decoderState_setEncoder hr rfl rfl
  | begin_ => cases h; rfl
  | nop | getvalue | xy2i | i2xy | griddim =>
    rw [State.decoderState, exec_encs_of_onlyAnswers (by simp [Instr.OnlyAnswers]) h]
    rfl

/-- Settles O36: SETBOUNDS and SETVALUE write other registers, the rest write no record. -/
theorem onlySamplingTouchesDecoderState : Obligations.OnlySamplingTouchesDecoderState := by
  unfold Obligations.OnlySamplingTouchesDecoderState
  intro i s t hpoll hsample h
  exact exec_decoderState hpoll hsample h

end Sys2Proof.Machine

/-! PROOFS of the family 42_bounds_policy: the function Apply, and SETBOUNDS, SETVALUE and GETVALUE. R152 leaves
Apply one answer only, so what Apply answers is shown by checking R152 for the answer, without computing it; the
rules derived from R151 are then facts about one interval and one divisibility. -/

namespace Sys2Proof.Machine

open Sys2Proof.Claims

variable {s : State} {e : BitVec 8} {r : Encoder} {raw lo hi v w : Int} {wrap : Bool}

/-! ### Apply is what R152 says it is -/

/-- Clipping takes a raw value to one place, and two values of the range congruent modulo its span are one. -/
theorem applied_unique (hv : Applied raw lo hi wrap v) (hw : Applied raw lo hi wrap w) : v = w := by
  obtain ⟨hvlo, hvhi, hvclip, hvwrap⟩ := hv
  obtain ⟨hwlo, hwhi, hwclip, hwwrap⟩ := hw
  cases wrap with
  | false =>
    obtain ⟨hvbelow, hvabove, hvmem⟩ := hvclip rfl
    obtain ⟨hwbelow, hwabove, hwmem⟩ := hwclip rfl
    omega
  | true =>
    have hdvd : hi - lo + 1 ∣ v - w := sub_sub_sub_cancel_right v w raw ▸ dvd_sub (hvwrap rfl) (hwwrap rfl)
    have hsmall : |v - w| < hi - lo + 1 := abs_lt.mpr ⟨by omega, by omega⟩
    exact sub_eq_zero.mp (Int.eq_zero_of_abs_lt_dvd hdvd hsmall)

theorem exists_applyBounds (raw : Int) (wrap : Bool) (hle : lo ≤ hi) :
    ∃ v, applyBounds raw lo hi wrap = some v :=
  ⟨_, applyBounds_of_le hle⟩

theorem applyBounds_eq_some_iff : applyBounds raw lo hi wrap = some v ↔ Applied raw lo hi wrap v := by
  refine ⟨applied_of_applyBounds, fun happlied => ?_⟩
  have ⟨hlo, hhi, _⟩ := happlied
  obtain ⟨w, hw⟩ := exists_applyBounds raw wrap (hlo.trans hhi)
  rw [hw, applied_unique (applied_of_applyBounds hw) happlied]

/-! ### Raw values inside the bounds and outside (R152, R153) -/

theorem applyBounds_of_mem_bounds (hlo : lo ≤ raw) (hhi : raw ≤ hi) :
    applyBounds raw lo hi wrap = some raw := by
  refine applyBounds_eq_some_iff.mpr ⟨hlo, hhi, fun _ => ⟨?_, ?_, fun _ _ => rfl⟩, fun _ => by simp⟩ <;> omega

theorem applyBounds_clip_of_below (hle : lo ≤ hi) (h : raw < lo) : applyBounds raw lo hi false = some lo := by
  refine applyBounds_eq_some_iff.mpr ⟨le_rfl, hle, fun _ => ⟨fun _ => rfl, ?_, ?_⟩, by simp⟩ <;> omega

theorem applyBounds_clip_of_above (hle : lo ≤ hi) (h : hi < raw) : applyBounds raw lo hi false = some hi := by
  refine applyBounds_eq_some_iff.mpr ⟨hle, le_rfl, fun _ => ⟨?_, fun _ => rfl, ?_⟩, by simp⟩ <;> omega

/-- Wrapping around answers the value of the range that is congruent to the raw value modulo the span. -/
theorem applyBounds_wrap_of_dvd (hlo : lo ≤ v) (hhi : v ≤ hi) (hdvd : hi - lo + 1 ∣ v - raw) :
    applyBounds raw lo hi true = some v :=
  applyBounds_eq_some_iff.mpr ⟨hlo, hhi, by simp, fun _ => hdvd⟩

theorem applyBounds_wrap_above (hle : lo ≤ hi) : applyBounds (hi + 1) lo hi true = some lo :=
  applyBounds_wrap_of_dvd le_rfl hle ⟨-1, by ring⟩

theorem applyBounds_wrap_below (hle : lo ≤ hi) : applyBounds (lo - 1) lo hi true = some hi :=
  applyBounds_wrap_of_dvd hle le_rfl ⟨1, by ring⟩

theorem applyBounds_wrap_add_spans (hle : lo ≤ hi) (raw k : Int) :
    applyBounds (raw + k * (hi - lo + 1)) lo hi true = applyBounds raw lo hi true := by
  obtain ⟨v, hv⟩ := exists_applyBounds raw true hle
  obtain ⟨hlo, hhi, _, hdvd⟩ := applied_of_applyBounds hv
  rw [hv]
  refine applyBounds_wrap_of_dvd hlo hhi ?_
  rw [← sub_sub]
  exact dvd_sub (hdvd rfl) (dvd_mul_left _ _)

/-- Bounds that hold one value answer it, under either policy. -/
theorem applyBounds_of_span_one (raw lo : Int) (wrap : Bool) : applyBounds raw lo lo wrap = some lo := by
  obtain ⟨v, hv⟩ := exists_applyBounds raw wrap (le_refl lo)
  obtain ⟨hlo, hhi⟩ := applyBounds_mem_bounds hv
  rw [hv, le_antisymm hhi hlo]

/-! ### The range of a register (R8, R17) -/

theorem vmin_toInt : (0x8000#16).toInt = VMIN := by decide

theorem vmax_toInt : (0x7FFF#16).toInt = VMAX := by decide

theorem vmin_le_toInt (v : Reg) : VMIN ≤ v.toInt := BitVec.le_toInt v

theorem toInt_le_vmax (v : Reg) : v.toInt ≤ VMAX := Int.le_of_lt_add_one (BitVec.toInt_lt (x := v))

/-- A number of the range of a register is kept by writing it to a register and reading it back. -/
theorem signed16_bits16 (hmin : VMIN ≤ v) (hmax : v ≤ VMAX) : signed16 (bits16 v) = v :=
  bits16_toInt_of_mem_bounds (vmin_toInt.trans_le hmin) (hmax.trans_eq vmax_toInt.symm)

/-- The register of a number differs from it by a multiple of the span of the full range. -/
theorem fullRange_span_dvd (raw : Int) : VMAX - VMIN + 1 ∣ (BitVec.ofInt 16 raw).toInt - raw := by
  rw [BitVec.toInt_ofInt]
  exact Int.dvd_bmod_sub_self

/-! ### The statements about Apply -/

/-- Settles O37: Apply answers in its bounds, and a value there is its own answer. -/
theorem applyResultLiesInTheBounds : Obligations.ApplyResultLiesInTheBounds := by
  unfold Obligations.ApplyResultLiesInTheBounds
  intro raw lo hi wrap hle
  obtain ⟨v, hv⟩ := exists_applyBounds raw wrap hle
  obtain ⟨hlo, hhi⟩ := applyBounds_mem_bounds hv
  exact ⟨v, hv, hlo, hhi, fun hmin hmax => signed16_bits16 (hmin.trans hlo) (hhi.trans hmax),
    applied_eq_of_mem_bounds (applied_of_applyBounds hv), applyBounds_of_mem_bounds hlo hhi⟩

/-- Settles O38, by the answer of Apply to each kind of raw value. -/
theorem applyClipsOrWrapsAround : Obligations.ApplyClipsOrWrapsAround := by
  unfold Obligations.ApplyClipsOrWrapsAround
  intro raw lo hi hle
  obtain ⟨v, hv⟩ := exists_applyBounds raw true hle
  refine ⟨applyBounds_clip_of_below hle, applyBounds_clip_of_above hle, applyBounds_of_mem_bounds,
    ⟨v, hv, applied_of_applyBounds hv⟩, applyBounds_wrap_above hle, applyBounds_wrap_below hle,
    applyBounds_wrap_add_spans hle raw, ?_⟩
  rintro rfl wrap
  exact applyBounds_of_span_one raw lo wrap

/-- Settles O39: every register value lies in the full range, whose span is the modulus of a register. -/
theorem fullRangeBoundsSaturateOrWrap : Obligations.FullRangeBoundsSaturateOrWrap := by
  unfold Obligations.FullRangeBoundsSaturateOrWrap
  have hle : VMIN ≤ VMAX := by decide
  refine ⟨applyBounds_clip_of_above hle (by decide), applyBounds_clip_of_below hle (by decide), fun v => ?_,
    applyBounds_wrap_above hle, applyBounds_wrap_below hle, fun raw => ?_⟩
  · exact applyBounds_of_mem_bounds (vmin_le_toInt v) (toInt_le_vmax v)
  · exact applyBounds_wrap_of_dvd (vmin_le_toInt _) (toInt_le_vmax _) (fullRange_span_dvd raw)

/-! ### The words of the three commands (R73, R75, R76) -/

/-- A word whose `wrap` and `hi` fields are not used has one field of zeros above `lo`. -/
theorem packWord_no_bounds (op : BitVec 4) (e : BitVec 8) (lo : Reg) :
    packWord op e false 0 lo = op ++ e ++ 0#20 ++ lo := by
  have hzeros : 0#3 ++ (BitVec.ofBool false ++ 0#16) = 0#20 := by decide
  have hhead : (op ++ e ++ 0#3 ++ BitVec.ofBool false ++ 0#16 : BitVec 32) = op ++ e ++ 0#20 :=
    calc (op ++ e ++ 0#3 ++ BitVec.ofBool false ++ 0#16 : BitVec 32)
        = (op ++ e ++ 0#3 : BitVec 15) ++ (BitVec.ofBool false ++ 0#16) := BitVec.append_assoc
      _ = (op ++ e : BitVec 12) ++ (0#3 ++ (BitVec.ofBool false ++ 0#16)) := BitVec.append_assoc
      _ = op ++ e ++ 0#20 := by rw [hzeros]
  exact congrArg (· ++ lo) hhead

theorem encode_setbounds (e : BitVec 8) (lo hi : Reg) (wrap : Bool) :
    encode (.setbounds e lo hi wrap) = 0x4#4 ++ e ++ 0#3 ++ BitVec.ofBool wrap ++ hi ++ lo := rfl

theorem encode_setvalue (e : BitVec 8) (v : Reg) : encode (.setvalue e v) = 0x5#4 ++ e ++ 0#20 ++ v :=
  packWord_no_bounds _ e v

theorem encode_getvalue (e : BitVec 8) : encode (.getvalue e) = 0x6#4 ++ e ++ 0#36 :=
  calc encode (.getvalue e)
      = (0x6#4 ++ e ++ 0#20 : BitVec 32) ++ 0#16 := packWord_no_bounds _ e 0
    _ = (0x6#4 ++ e : BitVec 12) ++ (0#20 ++ 0#16) := BitVec.append_assoc
    _ = 0x6#4 ++ e ++ 0#36 := rfl

/-! ### What SETVALUE and GETVALUE answer (R157, R158) -/

/-- With a record at its index, SETVALUE is refused when the bounds of that record are crossed. -/
theorem exec_setvalue_of_crossed (h : s.encs[e.toNat]? = some r) (hlt : r.hi.toInt < r.lo.toInt) (v : Reg) :
    exec (.setvalue e v) s = .refused (.boundsPrecondition e.toNat) := by
  have hnorm : r.normalise (signed16 v) = none := normalise_eq_none_iff.mpr hlt
  simp [exec, execSetvalue, onEncoder_of_record h, hnorm, encIndex]

theorem exec_getvalue_of_record (h : s.encs[e.toNat]? = some r) :
    exec (.getvalue e) s = .next (respond (bits16 (signed16 r.value)) s) :=
  onEncoder_of_record h

/-! ### The statements about the commands -/

/-- Settles O41: with ordered bounds the record is normalised, with crossed bounds it is not. -/
theorem setvalueStoresTheNormalisedValue : Obligations.SetvalueStoresTheNormalisedValue := by
  unfold Obligations.SetvalueStoresTheNormalisedValue
  refine ⟨fun n e v he => ?_, fun s e v r hr => ⟨fun hle => ?_, fun hlt => ?_⟩, fun s e v hl => ?_⟩
  · rw [← encode_setvalue]
    exact decode_encode (decide_eq_true he)
  · obtain ⟨value, hnorm, happlied⟩ := normalise_applied (q := r) hle v.toInt
    exact ⟨value, happlied, exec_setvalue_of_normalise hr hnorm⟩
  · exact exec_setvalue_of_crossed hr hlt v
  · exact exec_of_no_record rfl hl

/-- Settles O45: the full range holds 0, so the SETVALUE stores it as it is. -/
theorem commandsRestoreVisibleRegisters : Obligations.CommandsRestoreVisibleRegisters := by
  unfold Obligations.CommandsRestoreVisibleRegisters
  intro s e r hr
  have hbounded := respondDone_setEncoder_same (r := r.setBounds 0x8000#16 0x7FFF#16 false) hr
  have hlo : (0x8000#16).toInt ≤ (0#16).toInt := by decide
  have hhi : (0#16).toInt ≤ (0x7FFF#16).toInt := by decide
  have hnorm : (r.setBounds 0x8000#16 0x7FFF#16 false).normalise (0#16).toInt =
      some { r.setBounds 0x8000#16 0x7FFF#16 false with value := 0#16 } :=
    normalise_of_some (applyBounds_of_mem_bounds hlo hhi)
  exact ⟨_, _, exec_setbounds_of_record hr, exec_setvalue_of_normalise hbounded hnorm,
    respond_setEncoder_twice _ _ _ _ _ _⟩

/-- Settles O40: SETBOUNDS writes the record at its index, whatever its operands. -/
theorem setboundsStoresItsOperands : Obligations.SetboundsStoresItsOperands := by
  unfold Obligations.SetboundsStoresItsOperands
  refine ⟨fun n e lo hi wrap he => ?_, fun s e lo hi wrap r hr => ?_, fun s e lo hi wrap hl => ?_⟩
  · rw [← encode_setbounds]
    exact decode_encode (decide_eq_true he)
  · have hexec := exec_setbounds_of_record (lo := lo) (hi := hi) (wrap := wrap) hr
    exact ⟨_, rfl, hexec, exec_setbounds_repeat hexec⟩
  · exact exec_of_no_record rfl hl

/-- Settles O42: GETVALUE reads the record at its index and writes none. -/
theorem getvalueAnswersTheValue : Obligations.GetvalueAnswersTheValue := by
  unfold Obligations.GetvalueAnswersTheValue
  refine ⟨fun n e he => ?_, fun s e r hr => exec_getvalue_of_record hr, fun s e hl => exec_of_no_record rfl hl⟩
  rw [← encode_getvalue]
  exact decode_encode (decide_eq_true he)

end Sys2Proof.Machine

/-! PROOFS of the family 43_encoder_manager: NOP, BEGIN and POLL. What a POLL does is decided by the encoders whose
decoder step is refused: it completes when there is none and names the least otherwise. -/

namespace Sys2Proof.Machine

variable {s : State} {i : Nat}

/-! ### BEGIN (R36, R173) -/

/-- With CFG_DONE set the pull-ups are enabled where PULLUP asks for them (R36). -/
theorem puEn_of_cfgDone (h : s.cfgDone = true) : s.puEn = s.cfg.wiring.map (fun k => k.pullUp) := by
  simp [State.puEn, h]

theorem exec_begin_repeat (s : State) :
    exec .begin_ (respondDone (setCfgDone s)) = .next (respondDone (setCfgDone s)) :=
  exec_begin _

/-! ### When POLL completes (R175, R195) -/

/-- Encoder `i` has a record, and the decoder step of that record with its own PinRead is refused. -/
def State.RefusesStepOf (s : State) (i : Nat) : Prop :=
  ∃ r, s.encs[i]? = some r ∧ r.step s.cfg.clickStep (pinRead s i) = none

/-- The loop of POLL, counting from 0, stops at the least encoder whose step is refused. -/
theorem isLeast_of_pollFrom_error (h : pollFrom s.cfg.clickStep (pinRead s) 0 s.encs = .error i) :
    IsLeast {k | s.RefusesStepOf k} i := by
  obtain ⟨k, r, hi, hr, hstep, hlow⟩ := pollFrom_error h
  obtain rfl : i = k := by simpa using hi
  refine ⟨⟨r, hr, hstep⟩, fun j ⟨q, hq, hrefused⟩ => not_lt.mp fun hj => hlow j q hj hq ?_⟩
  rwa [Nat.zero_add]

/-- A completed POLL met no refused step. -/
theorem not_refusesStepOf_of_exec_poll {t : State} (h : exec .poll s = .next t) (i : Nat) :
    ¬ s.RefusesStepOf i := by
  rintro ⟨r, hr, hrefused⟩
  obtain ⟨_, _, hstep, _⟩ := exec_poll_record h hr
  cases hrefused.symm.trans hstep

theorem exec_poll_of_no_refused_step (h : ∀ i, ¬ s.RefusesStepOf i) :
    ∃ es, exec .poll s = .next (respondDone (useDraw { s with encs := es })) := by
  rcases exec_poll_cases (s := s) rfl with ⟨i, hloop, _⟩ | ⟨es, _, ho⟩
  · exact absurd (isLeast_of_pollFrom_error hloop).1 (h i)
  · exact ⟨es, ho⟩

theorem exec_poll_of_isLeast (h : IsLeast {k | s.RefusesStepOf k} i) :
    exec .poll s = .refused (.boundsPrecondition i) := by
  rcases exec_poll_cases (s := s) rfl with ⟨j, hloop, ho⟩ | ⟨_, _, ho⟩
  · rw [ho, (isLeast_of_pollFrom_error hloop).unique h]
  · exact absurd h.1 (not_refusesStepOf_of_exec_poll ho i)

/-! ### The statements about the encoder manager -/

/-- Settles O19: the loop stops at refused steps only, and a POLL that completes has stepped every record. -/
theorem pollStepsEveryEncoder : Obligations.PollStepsEveryEncoder := by
  unfold Obligations.PollStepsEveryEncoder
  intro s h
  obtain ⟨es, hpoll⟩ := exec_poll_of_no_refused_step fun i ⟨r, hr, hrefused⟩ => h i r hr hrefused
  refine ⟨es, hpoll, (exec_poll_frame hpoll).encs_length, fun i r r' d hr hstep => ?_⟩
  obtain ⟨q, d', hq, hes⟩ := exec_poll_record hpoll hr
  obtain ⟨rfl, _⟩ : r' = q ∧ d = d' := by simpa [hstep] using hq
  exact hes

/-- Settles O21: the encoder of the statement is the least whose step is refused. -/
theorem pollRefusalNamesTheLowestEncoder : Obligations.PollRefusalNamesTheLowestEncoder := by
  unfold Obligations.PollRefusalNamesTheLowestEncoder
  intro s i r hr hrefused hlow
  exact exec_poll_of_isLeast
    ⟨⟨r, hr, hrefused⟩, fun j ⟨q, hq, hq'⟩ => not_lt.mp fun hj => hlow j q hj hq hq'⟩

/-- Settles O13, by the word and the meaning of NOP. -/
theorem nopChangesNothing : Obligations.NopChangesNothing := by
  unfold Obligations.NopChangesNothing
  exact ⟨fun n => decode_encode (i := .nop) rfl, exec_nop⟩

/-- Settles O14: BEGIN leaves CFG_DONE set, so PU_EN is PULLUP and a second BEGIN finds nothing to change. -/
theorem beginSetsCfgDoneOnly : Obligations.BeginSetsCfgDoneOnly := by
  unfold Obligations.BeginSetsCfgDoneOnly
  refine ⟨fun n => decode_encode (i := .begin_) rfl, fun s => ?_⟩
  exact ⟨_, rfl, exec_begin s, puEn_of_cfgDone rfl, exec_begin_repeat s⟩

end Sys2Proof.Machine

/-! PROOFS of the family 60_exceptions: the illegal outcome and the absence of a hang. A completed command answers
`err = 1` only for an encoder index without a record, which no decoded word carries; a step that is not taken can
only be a refusal, which names a crossed encoder. -/

namespace Sys2Proof.Machine

open Sys2Proof.Claims

variable {s t : State} {i : Instr}

/-! ### When a command answers `err = 0` (R191) -/

/-- The command carries an encoder index, and the index selects no record of `s` (R51, R84). -/
def Instr.SelectsNoRecord (i : Instr) (s : State) : Prop :=
  ∃ e, i.encField = some e ∧ s.encs.length ≤ e.toNat

/-- A legal command's index, if it carries one, names an encoder of the build (R84). -/
theorem encField_lt_of_wellFormed {n : Nat} {e : BitVec 8} (hwf : i.wellFormed n = true)
    (he : i.encField = some e) : e.toNat < n := by
  cases i with
  | sample | setbounds | setvalue | getvalue => cases he; exact of_decide_eq_true hwf
  | nop | begin_ | poll | xy2i | i2xy | griddim => cases he

theorem not_selectsNoRecord_of_wellFormed (hwf : i.wellFormed s.encs.length = true) :
    ¬ Instr.SelectsNoRecord i s := by
  rintro ⟨e, he, hl⟩
  exact absurd (encField_lt_of_wellFormed hwf he) (not_lt.mpr hl)

/-- A word decodes to legal commands only. -/
theorem wellFormed_of_decode_ok {n : Nat} {w : CmdWord} (h : decode n w = .ok i) :
    i.wellFormed n = true := by
  obtain ⟨_, hwf⟩ := legalWordIsEncodingOfItsCommand n w i h
  exact hwf

/-- A completed command that carries no encoder index answers `err = 0`: there is no illegal outcome among its
cases. -/
theorem exec_next_ok_of_no_encField (hi : i.encField = none) (h : exec i s = .next t) :
    ∃ d, t.rsp = ok d := by
  cases i with
  | nop | begin_ | griddim => cases h; exact ⟨_, rfl⟩
  | poll => rcases exec_poll_cases h with ⟨_, _, ho⟩ | ⟨_, _, ho⟩ <;> cases ho; exact ⟨_, rfl⟩
  | xy2i => rcases exec_xy2i_cases h with ⟨_, _, ho⟩ | ⟨_, ho⟩ <;> cases ho <;> exact ⟨_, rfl⟩
  | i2xy => rcases exec_i2xy_cases h with ⟨_, ho⟩ | ⟨_, ho⟩ <;> cases ho <;> exact ⟨_, rfl⟩
  | sample | setbounds | setvalue | getvalue => cases hi

/-- A completed command answers `err = 0` unless its encoder index selects no record (R84, R191). -/
theorem exec_next_ok (hi : ¬ Instr.SelectsNoRecord i s) (h : exec i s = .next t) : ∃ d, t.rsp = ok d := by
  cases i with
  | sample =>
    rcases exec_sample_cases h with ⟨hl, _⟩ | ⟨_, _, _, ho⟩ | ⟨_, _, _, _, _, ho⟩
    · exact absurd ⟨_, rfl, hl⟩ hi
    · cases ho
    · cases ho; exact ⟨_, rfl⟩
  | setbounds =>
    rcases exec_setbounds_cases h with ⟨hl, _⟩ | ⟨_, _, ho⟩
    · exact absurd ⟨_, rfl, hl⟩ hi
    · cases ho; exact ⟨_, rfl⟩
  | setvalue =>
    rcases exec_setvalue_cases h with ⟨hl, _⟩ | ⟨_, _, _, ho⟩ | ⟨_, _, _, _, ho⟩
    · exact absurd ⟨_, rfl, hl⟩ hi
    · cases ho
    · cases ho; exact ⟨_, rfl⟩
  | getvalue =>
    rcases exec_getvalue_cases h with ⟨hl, _⟩ | ⟨_, _, ho⟩
    · exact absurd ⟨_, rfl, hl⟩ hi
    · cases ho; exact ⟨_, rfl⟩
  | nop | begin_ | poll | xy2i | i2xy | griddim => exact exec_next_ok_of_no_encField rfl h

/-! ### When the next step is taken (R192, R222) -/

theorem not_namesCrossedEncoder_of_ordered {why : Refusal} (hs : s.Ordered) :
    ¬ why.NamesCrossedEncoder s := by
  rintro ⟨k, r, _, hr, hlt⟩
  exact absurd (hs r (List.mem_of_getElem? hr)) (not_le.mpr hlt)

/-- A step that is not taken is a refusal: there are no faults (R193). -/
theorem canStep_of_not_refused (h : ∀ why, step s ≠ .refused why) : s.CanStep := by
  rcases hstep : step s with t | fault | why
  · exact ⟨t, hstep⟩
  · cases fault
  · exact absurd hstep (h why)

/-! ### The statements -/

/-- Settles O7: an illegal word has the illegal outcome, and the command of a legal word finds its record. -/
theorem errIsSetExactlyByIllegalWords : Obligations.ErrIsSetExactlyByIllegalWords := by
  unfold Obligations.ErrIsSetExactlyByIllegalWords
  intro s w pins rest hp
  constructor
  · intro why hd
    exact step_of_decode_error hp ⟨why, hd⟩
  · intro i t hd hstep
    have hrecord : ¬ Instr.SelectsNoRecord i (accept pins rest s) :=
      not_selectsNoRecord_of_wellFormed (wellFormed_of_decode_ok hd)
    exact exec_next_ok hrecord ((step_of_decode_ok hp hd).symm.trans hstep)

/-- Settles O56: a refusal would name a crossed encoder. -/
theorem uncrossedBoundsNeverStop : Obligations.UncrossedBoundsNeverStop := by
  unfold Obligations.UncrossedBoundsNeverStop
  intro s hs
  exact canStep_of_not_refused fun _ h => not_namesCrossedEncoder_of_ordered hs (step_refused h)

end Sys2Proof.Machine

/-! PROOFS of the family 70_reset_and_hazards: what a reset event leaves. The registers are those of the block's
own build, and what belongs to the outside stays (R210, R212). -/

namespace Sys2Proof.Machine

variable {s : State} {r : Encoder}

@[simp] theorem encoderReset_prev (c : Config) : (Encoder.reset c).prev = c.prevReset := rfl

@[simp] theorem encoderReset_acc_toInt (c : Config) : (Encoder.reset c).acc.toInt = 0 := rfl

/-- A reset rebuilds one record per encoder of the build (R40, R210). -/
theorem takeReset_encs_length (s : State) : (takeReset s).encs.length = s.cfg.nEnc := by
  rw [takeReset_encs, List.length_replicate]

/-- Every record after a reset holds the reset values of the build that was reset (R10, R40). -/
theorem eq_encoderReset_of_mem_takeReset (hr : r ∈ (takeReset s).encs) : r = Encoder.reset s.cfg :=
  List.eq_of_mem_replicate (takeReset_encs s ▸ hr)

/-- Settles O11: the step is the reset of the state without its event, and every record is the reset record. -/
theorem resetEventRestoresEveryRegister : Obligations.ResetEventRestoresEveryRegister := by
  unfold Obligations.ResetEventRestoresEveryRegister
  intro s rest hp
  refine ⟨_, step_of_reset hp, takeReset_encs_length _, fun r hr => ?records,
    takeReset_cfgDone _, takeReset_rsp _, takeReset_cfg _, takeReset_pins _, takeReset_port _, takeReset_draws _⟩
  case records =>
    obtain rfl := eq_encoderReset_of_mem_takeReset hr
    exact ⟨encoderReset_value_toInt _, encoderReset_lo_toInt _, encoderReset_hi_toInt _, encoderReset_wrap _,
      encoderReset_prev _, encoderReset_acc_toInt _⟩

end Sys2Proof.Machine

/-! PROOFS of the family other: words written out from the formats of R72 to R79. Each is the word of a
well-formed command, which the decoder reads back. -/

namespace Sys2Proof.Machine

variable {n : Nat} {w : CmdWord} {i : Instr}

/-- A word written out is decoded by naming the well-formed command whose word it is. -/
theorem decode_eq_ok_of_encode_eq (hw : encode i = w) (hwf : i.wellFormed n = true) : decode n w = .ok i :=
  hw ▸ decode_encode hwf

/-- Settles O8: each word is the encoding of the command it stands for, whose encoder, if any, is in the build. -/
theorem writtenOutWordsDecode : Obligations.WrittenOutWordsDecode := by
  unfold Obligations.WrittenOutWordsDecode
  refine ⟨?_, ?_, ?_, ?_, ?_, ?_, ?_, ?_, ?_, ?_, ?_⟩ <;>
    exact decode_eq_ok_of_encode_eq (by decide) (by decide)

end Sys2Proof.Machine
